-- ==== Sys2Proof/Word.lean ====
section
/-! DEFINITION. The widths that the LX-240 exchanges and counts in (spec ch. 12): bytes, 16-bit
and 32-bit fields. Byte-order helpers stand in Machine/Operands.lean. -/

namespace Sys2Proof

/-- One byte of a frame, a block or a record. -/
abbrev Byte := BitVec 8

/-- A 16-bit field: epoch, run number, code, mask. -/
abbrev Half := BitVec 16

/-- A 32-bit field: track, run clock, frame number. -/
abbrev Word32 := BitVec 32

end Sys2Proof
end

