-- ==== Sys2Proof/Syntax.lean ====
section
/-! DEFINITION. The commands of the LX-240: one constructor for each row of
spec/opcode_table.json. A request carries the asking port and the argument bytes that follow its
request code (12.2); the table gives no operand fields, so the operands are the manual's
(log 1). -/

namespace Sys2Proof

/-- The three ports and, as owners and sources, the masters behind them (4.3). -/
inductive Port where
  | surface | drive | head
  deriving DecidableEq, Repr

/-- The two ports that are bus targets and hold an answer slot (R166). -/
inductive BusPort where
  | drive | head
  deriving DecidableEq, Repr

/-- The port that a bus port is. -/
def BusPort.port : BusPort → Port
  | .drive => .drive
  | .head => .head

/-- The two posted attributes (8.1). -/
inductive Posted where
  | attitude | pose
  deriving DecidableEq, Repr

/-- The commands: every row of the opcode table. -/
inductive Instr where
  -- requests of 12.1, each with the asking port and its argument bytes
  | status (port : Port) (args : List Byte)
  | events (port : Port) (args : List Byte)
  | configGet (port : Port) (args : List Byte)
  | configSet (port : Port) (args : List Byte)
  | restart (port : Port) (args : List Byte)
  | runStart (port : Port) (args : List Byte)
  | runEnd (port : Port) (args : List Byte)
  | zero (port : Port) (args : List Byte)
  | setChainage (port : Port) (args : List Byte)
  | reelReport (port : Port) (args : List Byte)
  | waypointPlace (port : Port) (args : List Byte)
  | waypointClear (port : Port) (args : List Byte)
  | waypointRead (port : Port) (args : List Byte)
  | claim (port : Port) (args : List Byte)
  | still (port : Port) (args : List Byte)
  | halt (port : Port) (args : List Byte)
  | haltAck (port : Port) (args : List Byte)
  | resume (port : Port) (args : List Byte)
  | lampMode (port : Port) (args : List Byte)
  | lampWeights (port : Port) (args : List Byte)
  | presetWrite (port : Port) (args : List Byte)
  | presetSelect (port : Port) (args : List Byte)
  | attitude (port : Port) (args : List Byte)
  | pose (port : Port) (args : List Byte)
  | journalNext (port : Port) (args : List Byte)
  | journalBulk (port : Port) (args : List Byte)
  | journalSeek (port : Port) (args : List Byte)
  | journalRewind (port : Port) (args : List Byte)
  | journalBind (port : Port) (args : List Byte)
  | journalUnbind (port : Port) (args : List Byte)
  | journalClear (port : Port) (args : List Byte)
  | journalMode (port : Port) (args : List Byte)
  | mark (port : Port) (args : List Byte)
  | note (port : Port) (args : List Byte)
  -- frames that are no request
  | unknownRequest (port : Port) (code : Byte) (args : List Byte)
  | invalidFrame (port : Port)
  | surfaceByteGapTimeout
  | surfaceAnswerSent
  | answerSlotAccept (port : BusPort) (code : Byte) (args : List Byte)
  | linkTimeout
  -- the chainage unit's arrivals
  | wheelFilterAccept (wa wb : Bool)
  | reelSilenceExpiry
  | velocityGate
  | runClockTick
  -- the current arbiter's arrivals
  | claimTimeout (port : Port)
  | sagAssert
  | sagRelease
  -- the frame and the lamps
  | frameBoundary
  | strobeOn
  | exposureStart
  | midpointCapture
  | exposureEnd
  | lumaReport (tag : Byte) (luma : Half)
  | pwmPeriodEnd
  | pwmOnEnd (channel : Fin 4)
  | dwellStart
  -- the halt controller's and the posted attributes' timers
  | settleExpiry
  | haltTimeout
  | attributeExpiry (which : Posted)
  -- the input lines, RESET and the luma line
  | lineEdge (line : Fin 4)
  | resetAssert
  | resetRelease
  | lineInactiveChange (line : Fin 4)
  | lrckLowPeriod
  deriving DecidableEq, Repr

end Sys2Proof
end

