-- ==== Sys2Proof/WellFormed.lean ====
section
/-! DEFINITION. Which terms of Instr a frame or an event of the manual can spell: argument bytes
that fit a frame (R163), and an unknown code that is none of the codes of 12.1. The machine gives a
meaning to every term; a term that is not well-formed is one that no frame carries. -/

namespace Sys2Proof

/-- The request codes of the table of 12.1. -/
def requestCodes : List Byte :=
  [0x01, 0x02, 0x03, 0x04, 0x05, 0x10, 0x11, 0x12, 0x13, 0x14, 0x18, 0x19, 0x1A, 0x20, 0x28, 0x29, 0x2A] ++
  [0x2B, 0x30, 0x31, 0x32, 0x33, 0x38, 0x39, 0x40, 0x41, 0x42, 0x43, 0x44, 0x45, 0x46, 0x47, 0x48, 0x49]

/-- A payload is 1 to 250 bytes (R163), the request code among them. -/
def argsFit (args : List Byte) : Bool := decide (args.length ≤ 249)

/-- The argument bytes that a command carries. -/
def Instr.args : Instr → List Byte
  | .status _ a | .events _ a | .configGet _ a | .configSet _ a | .restart _ a | .runStart _ a => a
  | .runEnd _ a | .zero _ a | .setChainage _ a | .reelReport _ a | .waypointPlace _ a => a
  | .waypointClear _ a | .waypointRead _ a | .claim _ a | .still _ a | .halt _ a | .haltAck _ a => a
  | .resume _ a | .lampMode _ a | .lampWeights _ a | .presetWrite _ a | .presetSelect _ a => a
  | .attitude _ a | .pose _ a | .journalNext _ a | .journalBulk _ a | .journalSeek _ a => a
  | .journalRewind _ a | .journalBind _ a | .journalUnbind _ a | .journalClear _ a => a
  | .journalMode _ a | .mark _ a | .note _ a | .unknownRequest _ _ a | .answerSlotAccept _ _ a => a
  | .invalidFrame _ | .surfaceByteGapTimeout | .surfaceAnswerSent | .linkTimeout => []
  | .wheelFilterAccept _ _ | .reelSilenceExpiry | .velocityGate | .runClockTick => []
  | .claimTimeout _ | .sagAssert | .sagRelease | .frameBoundary | .strobeOn | .exposureStart => []
  | .midpointCapture | .exposureEnd | .lumaReport _ _ | .pwmPeriodEnd | .pwmOnEnd _ => []
  | .dwellStart | .settleExpiry | .haltTimeout | .attributeExpiry _ | .lineEdge _ => []
  | .resetAssert | .resetRelease | .lineInactiveChange _ | .lrckLowPeriod => []

/-- An unknown request's code names no request (12.1: "Every other code, 00H among them, names no
request"). -/
def Instr.codeUnknown : Instr → Bool
  | .unknownRequest _ code _ => !requestCodes.contains code
  | _ => true

/-- The command is one that a frame or an event of the manual can spell. -/
def Instr.wellFormed (i : Instr) : Bool := argsFit i.args && i.codeUnknown

end Sys2Proof
end

