-- ==== Sys2Proof/Decode.lean ====
section
/-! DEFINITION. The command that a word of opcode-table bits spells. No row of
spec/opcode_table.json gives bits (its `fields` are empty and it has no `fixed`), so no word spells
a command (log 20). The byte layouts that frames do have (ch. 12) are read by
Machine/Operands.lean and Machine/Frames.lean. -/

namespace Sys2Proof

/-- The command spelled by the `nbits` bits `w` of the table's numbering: none, since no row of the
table gives bits. -/
def decodeTableWord (_nbits _w : Nat) : Option Instr := none

end Sys2Proof
end

