-- ==== Sys2Proof/Config.lean ====
section
/-! DEFINITION. The free values of the model: what the manual gives a place but no value. -/

namespace Sys2Proof

/-- The duration field of a SAG END record for a sag of 2^32 ms or more. R74 gives the duration in
ms and 12.4 gives it 32 bits; the manual does not say what the field holds when the duration does
not fit (log 9, DESIGN CHOICE). The argument is the true duration in ms. -/
opaque Config.freeSagDuration : Nat → Word32

end Sys2Proof
end

