-- ==== Sys2Proof/Machine/State.lean ====
section
/-! DEFINITION. The state of the LX-240, block by block (overview 2.1), its reasons to stop, and the
state right after reset. Times are counts of 0.5 µs ticks since the release of RESET (log 2); a
timer is held as the time at which it expires, or at which it was started. -/

namespace Sys2Proof.Machine

/-! ### Containers -/

/-- One thing for each of the three ports. -/
structure PerPort (α : Type) where
  surface : α
  drive : α
  head : α
  deriving DecidableEq, Repr

/-- Four like things: lamp channels, input lines, presets, weights. -/
structure Four (α : Type) where
  c0 : α
  c1 : α
  c2 : α
  c3 : α
  deriving DecidableEq, Repr

/-! ### Enumerations of the chapters -/

/-- Agreement state and window class (R11, R12). -/
inductive Agreement where
  | agree | slip | slack
  deriving DecidableEq, Repr

/-- Trusted track, reported as the source (R15). -/
inductive Source where
  | wheel | cable | none
  deriving DecidableEq, Repr

/-- Source mode (R15), in the order of 10.8. -/
inductive SourceMode where
  | cable | wheel | blend
  deriving DecidableEq, Repr

inductive RunState where
  | idle | survey
  deriving DecidableEq, Repr

/-- Survey direction of a run (R36). -/
inductive Direction where
  | withFlow | againstFlow
  deriving DecidableEq, Repr

/-- Lamp mode (6.2). -/
inductive LampMode where
  | off | strobe | steady
  deriving DecidableEq, Repr

/-- Journal mode (R152). -/
inductive JournalMode where
  | wrap | hold
  deriving DecidableEq, Repr

/-- Sense of a waypoint (3.1). -/
inductive Sense where
  | rising | falling | both
  deriving DecidableEq, Repr

/-- Side of an ARMED waypoint (R41). -/
inductive Side where
  | below | above
  deriving DecidableEq, Repr

/-- Action of a waypoint; PRESET carries its preset (3.1). -/
inductive Action where
  | mark | still | halt | haltStill | preset (k : Fin 4)
  deriving DecidableEq, Repr

/-- Function of an input line, in the order of 10.8. -/
inductive LineFunction where
  | none | zero | still | mark | resume
  deriving DecidableEq, Repr

/-- Polarity of an input line, in the order of 10.8. -/
inductive Polarity where
  | activeLow | activeHigh
  deriving DecidableEq, Repr

/-- The nine events of 10.7, in the bit order of the latch (12.1). -/
inductive Event where
  | grant | expired | halt | reref | journal | state | sag | restart | link
  deriving DecidableEq, Repr

/-- Statuses of an answer (R170). -/
inductive Status where
  | ok | pending | none | gap | busy | state | range | rights | owner | full | stale | conflict | unknown
  | length | notReady
  deriving DecidableEq, Repr

/-- Where a still, a mark or a resume comes from: an origin kind of ch. 12 with its number. -/
inductive Cause where
  | port (p : Port)
  | waypoint (slot : Fin 16)
  | line (n : Fin 4)
  | halt
  deriving DecidableEq, Repr

/-- Requester of a re-reference (R30). -/
inductive Requester where
  | zero | set | line (n : Fin 4) | runStart
  deriving DecidableEq, Repr

inductive HaltKind where
  | halt | haltStill
  deriving DecidableEq, Repr

/-- Origin of a halt sequence: the controller's own copy (R54). -/
inductive HaltOrigin where
  | surface
  | waypoint (slot : Fin 16) (owner : Port)
  deriving DecidableEq, Repr

/-- State of a halt sequence that is not IDLE (7.2). -/
inductive HaltState where
  | asked | settling | standing
  deriving DecidableEq, Repr

/-- Phase of a HALT record (R135). -/
inductive HaltPhase where
  | asked | acked | standing | moved | done | timeout | resumed
  deriving DecidableEq, Repr

/-- The sequence's own still (R128). -/
inductive StillMark where
  | none | queued | taken
  deriving DecidableEq, Repr

/-- Settle timer (R127). -/
inductive SettleTimer where
  | stopped | waiting | running (due : Nat)
  deriving DecidableEq, Repr

/-- Frame phase (R78). -/
inductive FramePhase where
  | none | pre | expose | guard
  deriving DecidableEq, Repr

/-! ### Settings (10.8) -/

/-- Settings of one input line (R181); the width is in ms. -/
structure LineSetting where
  function : LineFunction
  polarity : Polarity
  debounce : Nat
  deriving DecidableEq, Repr

/-- Every parameter of the table of 10.8, as last written (R176, R177). -/
structure Settings where
  wheelScale : Nat
  reelScale : Nat
  windowLength : Nat
  toleranceFactor : Nat
  confirmCount : Nat
  reelJumpLimit : Nat
  reelSilenceLimit : Nat
  glitchWidth : Nat
  sourceMode : SourceMode
  zeroOffset : Int
  tetherAllowance : Nat
  lampFloor : Nat
  claimTimeout : Nat
  framePeriod : Nat
  userExposure : Nat
  lumaTarget : Nat
  blurLimit : Nat
  dMax : Nat
  dMin : Nat
  gMax : Nat
  dwellLevel : Nat
  journalInterval : Nat
  channelMax : Nat
  dwellTime : Nat
  haltTimeout : Nat
  settleTime : Nat
  lines : Four LineSetting
  deriving DecidableEq, Repr

/-! ### Chainage unit (chapters 1 and 2) -/

/-- A filter candidate of R1, R72 or R179: the samples seen since the one that started it, and
whether it is to be accepted: the latest sample reached the width, and so it does under the width now
in force (R1, R181). Its level is the one that differs from the accepted level. -/
structure Candidate where
  age : Nat
  ripe : Bool
  deriving DecidableEq, Repr

/-- An agreement window (R10): its marks and the W, T and K in force for it. -/
structure Window where
  wheelMark : Word32
  cableMark : Word32
  w : Nat
  t : Nat
  k : Nat
  deriving DecidableEq, Repr

/-- State of the chainage unit (1.1, 2.1). -/
structure Chainage where
  phaseA : Bool
  phaseB : Bool
  candA : Option Candidate
  candB : Option Candidate
  wheelTrack : Word32
  wheelResidual : Int
  cableTrack : Word32
  cableResidual : Int
  reelSeed : Option Word32
  cableLost : Bool
  silenceStart : Option Nat
  illegalCount : Nat
  wheelFault : Bool
  window : Window
  agreement : Agreement
  differing : Option (Agreement × Nat)
  trusted : Source
  chainage : Int
  sat : Bool
  history : List Int
  velocity : Int
  gateDue : Nat
  epoch : Half
  runState : RunState
  runNumber : Half
  runWheelBase : Word32
  runCableBase : Word32
  runClock : Word32
  clockDue : Nat
  deriving DecidableEq, Repr

/-- The published state that every reader takes whole (R25). -/
structure Published where
  chainage : Int
  epoch : Half
  source : Source
  held : Bool
  agreement : Agreement
  wheelFault : Bool
  cableLost : Bool
  sat : Bool
  velocity : Int
  runNumber : Half
  runState : RunState
  runClock : Word32
  deriving DecidableEq, Repr

/-! ### Waypoint table (chapter 3) -/

/-- The fields of a waypoint (3.1), but for its state and side. -/
structure Waypoint where
  owner : Port
  point : Int
  sense : Sense
  action : Action
  code : Option Half
  interval : Option Nat
  remaining : Option Nat
  deriving DecidableEq, Repr

/-- A slot of the table (R40); only an ARMED entry has a side. -/
inductive Slot where
  | free
  | armed (e : Waypoint) (side : Side)
  | spent (e : Waypoint)
  deriving DecidableEq, Repr

/-! ### Current arbiter (chapter 4) -/

/-- SETTLED, or PENDING with the time at which its timer expires (R60, R68). -/
inductive ClaimState where
  | settled
  | pending (due : Nat)
  deriving DecidableEq, Repr

/-- A claim record (R60). -/
structure Claim where
  granted : Nat
  requested : Nat
  state : ClaimState
  deriving DecidableEq, Repr

/-- State of the current arbiter (4.1). The surface port's record is AUX. -/
structure Arbiter where
  claims : PerPort Claim
  queue : List Port
  commit : Nat
  sag : Option Nat
  tsagCand : Option Candidate
  deriving DecidableEq, Repr

/-! ### Still queue and halt controller (chapter 7) -/

/-- An entry of the still queue (R119). -/
structure StillEntry where
  source : Cause
  code : Option Half
  moving : Bool
  deriving DecidableEq, Repr

/-- A halt sequence that is not IDLE (7.2). -/
structure HaltSeq where
  state : HaltState
  kind : HaltKind
  origin : HaltOrigin
  unconfirmed : Bool
  moved : Bool
  stillMark : StillMark
  haltDue : Option Nat
  settle : SettleTimer
  deriving DecidableEq, Repr

/-- State of the halt controller; no sequence is IDLE. -/
structure HaltController where
  seq : Option HaltSeq
  linkHalt : Bool
  deriving DecidableEq, Repr

/-! ### Frame sequencer (chapters 5 and 8) -/

/-- Incline (0.01°) and roll (0.1°) as stored (R136). -/
structure Attitude where
  incline : Int
  roll : Nat
  deriving DecidableEq, Repr

/-- Pan (0.1°), tilt (0.1°) and zoom step as stored (R137). -/
structure Pose where
  pan : Nat
  tilt : Int
  zoom : Nat
  deriving DecidableEq, Repr

/-- A FRESH attribute with the time at which it becomes ABSENT (R138). -/
structure Fresh (α : Type) where
  value : α
  due : Nat
  deriving DecidableEq, Repr

/-- The flags of a frame (R97). -/
structure FrameFlags where
  still : Bool
  underlit : Bool
  overlit : Bool
  shed : Bool
  held : Bool
  sat : Bool
  moving : Bool
  statsLate : Bool
  dwell : Bool
  deriving DecidableEq, Repr

/-- The stamp capture of a midpoint (R139). -/
structure Capture where
  published : Published
  attitude : Option Attitude
  pose : Option Pose
  deriving DecidableEq, Repr

/-- A frame record of the in-flight ring (R85). -/
structure FrameRecord where
  number : Word32
  t : Nat
  d : Nat
  levels : Four Nat
  g : Nat
  pd : Nat
  still : Option StillEntry
  flags : FrameFlags
  capture : Option Capture
  luma : Option Nat
  deriving DecidableEq, Repr

/-- State of the frame sequencer (5.1, 8.1). The ring is oldest first; its last record is the
current frame while the phase is not NONE. -/
structure FrameSequencer where
  frameStart : Nat
  frameDue : Nat
  period : Nat
  frameNumber : Word32
  phase : FramePhase
  windowOpen : Bool
  ring : List FrameRecord
  reportMark : Option Word32
  carried : Nat
  attitude : Option (Fresh Attitude)
  pose : Option (Fresh Pose)
  deriving DecidableEq, Repr

/-! ### Lamp driver (chapter 6) -/

/-- A PWM pair (R112) with the channel maximum at which it is driven (R113). -/
structure PwmPair where
  on : Nat
  off : Nat
  max : Nat
  deriving DecidableEq, Repr

/-- State of the lamp driver (6.1). -/
structure LampDriver where
  writtenMode : LampMode
  mode : LampMode
  pendingWeights : Four Nat
  weights : Four Nat
  presets : Four (Four Nat)
  channelMax : Nat
  pendingLevels : Four Nat
  activeLevels : Four Nat
  pendingPairs : Four PwmPair
  activePairs : Four PwmPair
  pwmStart : Option Nat
  outputs : Four Nat
  standstill : Option Nat
  dwell : Bool
  hold : Bool
  deriving DecidableEq, Repr

/-! ### Journal (chapter 9) -/

/-- What a record header takes from the chainage unit (R145); `capture` is header cause CAPTURE. -/
structure Header where
  runNumber : Half
  runClock : Word32
  chainage : Int
  epoch : Half
  source : Source
  agreement : Agreement
  wheelFault : Bool
  cableLost : Bool
  sat : Bool
  held : Bool
  capture : Bool
  deriving DecidableEq, Repr

/-- What a STILL and a FRAME record carry (R146). -/
structure FrameBody where
  number : Word32
  t : Nat
  d : Nat
  g : Nat
  flags : FrameFlags
  attitude : Option Attitude
  pose : Option Pose
  deriving DecidableEq, Repr

/-- The causes of a STATE record, one or more (R146). -/
structure StateCauses where
  agreement : Bool
  wheelFault : Bool
  cableLost : Bool
  reelJump : Bool
  deriving DecidableEq, Repr

/-- The twelve record kinds with their bodies (R146). A SAG record without a duration is phase
START, with one phase END. -/
inductive Body where
  | runOpen (direction : Direction) (label : List Byte)
  | runClose (implicit : Bool) (wheelTotal cableTotal : Word32)
  | reref (requester : Requester) (old : Int)
  | state (causes : StateCauses) (before after : Agreement) (wheelFault cableLost : Bool)
  | mark (cause : Cause) (haltBusy stillDropped : Bool) (n : Nat) (code : Option Half)
  | still (source : Cause) (code : Option Half) (frame : FrameBody)
  | frame (frame : FrameBody)
  | halt (phase : HaltPhase) (kind : HaltKind) (origin : HaltOrigin) (requester : Option Cause)
  | sag (duration : Option Word32)
  | lost (count : Nat) (firstDrop : Word32)
  | restart
  | note (text : List Byte)
  deriving DecidableEq, Repr

/-- A stored record with its sequence number (R147). -/
structure Record where
  seq : Nat
  header : Header
  body : Body
  deriving DecidableEq, Repr

/-- State of the journal (9.1). The store is oldest first; base is derived from it (log 22). -/
structure Journal where
  store : List Record
  next : Nat
  mode : JournalMode
  dropCount : Nat
  firstDrop : Option Word32
  cursors : PerPort Nat
  bound : PerPort Bool
  deriving DecidableEq, Repr

/-! ### Port interface (chapter 10) -/

/-- An answer: echoed code, status, event summary byte, data (12.1). -/
structure Answer where
  code : Byte
  status : Status
  summary : Byte
  data : List Byte
  deriving DecidableEq, Repr

/-- A receiver of R163 with the bytes it has kept. -/
inductive Receiver where
  | hunt
  | length
  | body (len : Byte) (got : List Byte)
  | check (len : Byte) (payload : List Byte) (first : Option Byte)
  deriving DecidableEq, Repr

/-- An answer slot (R166). WORKING holds the request in flight and the end of its 20 µs (log 8). -/
inductive AnswerSlot where
  | empty
  | working (code : Byte) (args : List Byte) (due : Nat)
  | held (answer : Answer)
  deriving DecidableEq, Repr

/-- The SPI transaction in progress on the drive port (R167): whether DCS is asserted, the level of DSCK,
the bits of the byte in assembly, whether a byte has come and whether all are ignored, the frame kept, the
bits still to shift out and the level of DMISO (none is high-impedance). -/
structure SpiBus where
  selected : Bool
  dsck : Bool
  bits : List Bool
  started : Bool
  ignoring : Bool
  frame : Option (List Byte)
  out : List Bool
  miso : Option Bool
  deriving DecidableEq, Repr

inductive I2cMode where
  | idle | write | read
  deriving DecidableEq, Repr

/-- The I2C transfer in progress on the head port (R168); `sda` is the byte last sent, `ack` whether
the part holds HSDA low for the acknowledge of the byte last received. -/
structure I2cBus where
  mode : I2cMode
  frame : Option (List Byte)
  out : List Byte
  sda : Option Byte
  ack : Bool
  deriving DecidableEq, Repr

/-- State of the port interface (chapter 10). The head of the output queue is the answer being
sent (R164). -/
structure PortInterface where
  receivers : PerPort Receiver
  lastByte : Nat
  outQueue : List Answer
  sendStart : Nat
  driveSlot : AnswerSlot
  headSlot : AnswerSlot
  latches : PerPort (BitVec 9)
  masks : PerPort (BitVec 9)
  linkDue : Option Nat
  fastBaud : Bool
  headAddress : BitVec 7
  spi : SpiBus
  i2c : I2cBus
  deriving DecidableEq, Repr

/-! ### Line inputs, sensor port and pins -/

/-- State of the line inputs (11.1). -/
structure LineInputs where
  accepted : Four Bool
  cands : Four (Option Candidate)
  deriving DecidableEq, Repr

/-- The gain word of R83 and 12.5: gain in Q8 and frame tag. -/
structure GainWord where
  gain : Nat
  tag : Byte
  deriving DecidableEq, Repr

/-- A pulse that the part gives the sensor: a rising edge of GWCK with the level of GWD at it, or FSTART
(R83, R189). -/
inductive SensorPulse where
  | gwck (gwd : Bool)
  | fstart
  deriving DecidableEq, Repr

/-- The luma report in assembly and what the sensor port and the overlay were last sent (R83, R141,
R189); `pulses` are those of the last boundary, in the order in which they went out. -/
structure SensorPort where
  bits : List Bool
  armed : Bool
  lowSince : Option Nat
  gainWord : Option GainWord
  pulses : List SensorPulse
  fstartPulses : Nat
  ovlBlock : List Byte
  ovlStart : Nat
  deriving DecidableEq, Repr

/-- Levels of the input pins (00, Signal Summary); true is high, and for TSAG asserted. -/
structure Pins where
  wa : Bool
  wb : Bool
  tsag : Bool
  lines : Four Bool
  sbaud : Bool
  hadr0 : Bool
  hadr1 : Bool
  lrck : Bool
  deriving DecidableEq, Repr

/-- A signal of the outside below the level of the commands (log 5): the pins at the next sample, a
character on SRXD with the level of its stop bit, the edges of an SPI transaction, a start, byte or stop of
an I2C one, an edge of LRCK. -/
inductive Wire where
  | sample (p : Pins)
  | surfaceByte (b : Byte) (stopBit : Bool)
  | driveSelect
  | dsckRise (mosi : Bool)
  | dsckFall
  | driveRelease
  | headStart (address : BitVec 7) (read : Bool)
  | headWrite (b : Byte)
  | headRead
  | headStop
  | lrckRise (lrd : Bool)
  | lrckFall
  deriving DecidableEq, Repr

/-! ### The machine -/

/-- The state of the part: one field for each block of 2.1, the settings, the RESET line, the pins,
the model's clock and its two input lists. -/
structure State where
  now : Nat
  resetLine : Bool
  pins : Pins
  cfg : Settings
  cu : Chainage
  wt : Vector Slot 16
  ca : Arbiter
  fs : FrameSequencer
  ld : LampDriver
  sq : List StillEntry
  hc : HaltController
  jn : Journal
  pi : PortInterface
  li : LineInputs
  sp : SensorPort
  inputs : List Wire
  pending : List Instr
  deriving DecidableEq, Repr

/-- Why the machine stops with a fault: the manual names no condition that stops the part, so there
is no reason (safe: nothing raises a fault). -/
inductive Fault where
  deriving DecidableEq, Repr

/-- Why the machine refuses a command. -/
inductive Refusal where
  /-- Raised by an arm of `exec` whose command has no meaning yet; no arm raises it (safe: the
  model would stop where the part goes on). -/
  | notModelled (mnemonic : String)
  deriving DecidableEq, Repr

/-! ### Power-on reset -/

/-- The same thing four times. -/
def Four.all (x : α) : Four α := ⟨x, x, x, x⟩

/-- The same thing for the three ports. -/
def PerPort.all (x : α) : PerPort α := ⟨x, x, x⟩

/-- The defaults of 10.8. -/
def Settings.default : Settings where
  wheelScale := 300
  reelScale := 1000
  windowLength := 500
  toleranceFactor := 26
  confirmCount := 2
  reelJumpLimit := 2000
  reelSilenceLimit := 250
  glitchWidth := 8
  sourceMode := .blend
  zeroOffset := 0
  tetherAllowance := 1200
  lampFloor := 100
  claimTimeout := 1000
  framePeriod := 40000
  userExposure := 8000
  lumaTarget := 400
  blurLimit := 500
  dMax := 2400
  dMin := 40
  gMax := 2048
  dwellLevel := 400
  journalInterval := 0
  channelMax := 800
  dwellTime := 10000
  haltTimeout := 5000
  settleTime := 300
  lines := .all ⟨.none, .activeLow, 20⟩

/-- R23, R26, R35, R39: the chainage unit at power-on; the accepted phases are the first samples
(R1), the gate expires 25 ms and the clock 1 ms after the release. -/
def Chainage.powerOn (p : Pins) : Chainage where
  phaseA := p.wa
  phaseB := p.wb
  candA := none
  candB := none
  wheelTrack := 0
  wheelResidual := 0
  cableTrack := 0
  cableResidual := 0
  reelSeed := none
  cableLost := true
  silenceStart := none
  illegalCount := 0
  wheelFault := false
  window := ⟨0, 0, 500, 50, 2⟩
  agreement := .agree
  differing := none
  trusted := .wheel
  chainage := 0
  sat := false
  history := [0, 0, 0, 0, 0, 0, 0, 0]
  velocity := 0
  gateDue := 50000
  epoch := 1
  runState := .idle
  runNumber := 0
  runWheelBase := 0
  runCableBase := 0
  runClock := 0
  clockDue := 2000

/-- R75, R72: the arbiter at power-on. The accepted level of TSAG is deasserted, so a TSAG asserted at
the release starts a candidate there and is accepted 2 µs later. -/
def Arbiter.powerOn (p : Pins) : Arbiter where
  claims := .all ⟨0, 0, .settled⟩
  queue := []
  commit := 0
  sag := none
  tsagCand := if p.tsag then some ⟨0, false⟩ else none

/-- R77, R101, R138: the frame sequencer at power-on; the first boundary falls 40,000 µs after the
release and the carried product is 2,400,000. -/
def FrameSequencer.powerOn : FrameSequencer where
  frameStart := 0
  frameDue := 80000
  period := 40000
  frameNumber := 0
  phase := .none
  windowOpen := false
  ring := []
  reportMark := none
  carried := 2400000
  attitude := none
  pose := none

/-- R117, R115: the lamp driver at power-on. -/
def LampDriver.powerOn : LampDriver where
  writtenMode := .off
  mode := .off
  pendingWeights := .all 1
  weights := .all 1
  presets := .all (.all 1)
  channelMax := 800
  pendingLevels := .all 0
  activeLevels := .all 0
  pendingPairs := .all ⟨0, 1024, 0⟩
  activePairs := .all ⟨0, 1024, 0⟩
  pwmStart := none
  outputs := .all 0
  standstill := some 0
  dwell := false
  hold := false

/-- R161: the journal at power-on. -/
def Journal.powerOn : Journal where
  store := []
  next := 1
  mode := .wrap
  dropCount := 0
  firstDrop := none
  cursors := .all 1
  bound := ⟨true, false, false⟩

/-- R178, R164, R168: the port interface at power-on; the straps are read and the link timer expires
2,000 ms after the release. No SPI or I2C transfer stands selected, whatever DCS and the bus showed before:
each waits for a new assertion of DCS or a new start (DESIGN CHOICE, log 35). -/
def PortInterface.powerOn (p : Pins) : PortInterface where
  receivers := .all .hunt
  lastByte := 0
  outQueue := []
  sendStart := 0
  driveSlot := .empty
  headSlot := .empty
  latches := .all 0
  masks := .all 0x1FF
  linkDue := some 4000000
  fastBaud := p.sbaud
  headAddress := BitVec.ofNat 7 (0x40 + 2 * p.hadr1.toNat + p.hadr0.toNat)
  spi := ⟨false, false, [], false, false, none, [], none⟩
  i2c := ⟨.idle, none, [], none, false⟩

/-- R179: each line's accepted level is its first sample. -/
def LineInputs.powerOn (p : Pins) : LineInputs where
  accepted := p.lines
  cands := .all none

/-- R189, R101, R141: no report in assembly, nothing sent to the sensor or the overlay; the part
waits for the first low period, which runs from the release when LRCK is low then. -/
def SensorPort.powerOn (p : Pins) : SensorPort where
  bits := []
  armed := false
  lowSince := if p.lrck then none else some 0
  gainWord := none
  pulses := []
  fstartPulses := 0
  ovlBlock := []
  ovlStart := 0

/-- R182: the part right after the release of RESET, with the levels then on its pins. -/
def State.powerOn (p : Pins) : State where
  now := 0
  resetLine := false
  pins := p
  cfg := .default
  cu := .powerOn p
  wt := Vector.replicate 16 .free
  ca := .powerOn p
  fs := .powerOn
  ld := .powerOn
  sq := []
  hc := ⟨none, false⟩
  jn := .powerOn
  pi := .powerOn p
  li := .powerOn p
  sp := .powerOn p
  inputs := []
  pending := []

/-- The pin levels at the release of RESET that `State.reset` assumes: the manual gives none
(DESIGN CHOICE, log 6). The encoder phases, TSAG, the straps and LRCK are low; the input lines are
high, as buttons that close to ground stand open. -/
def Pins.atRest : Pins where
  wa := false
  wb := false
  tsag := false
  lines := .all true
  sbaud := false
  hadr0 := false
  hadr1 := false
  lrck := false

/-- The machine right after reset (R182). -/
def State.reset : State := State.powerOn .atRest

end Sys2Proof.Machine
end

