-- ==== Sys2Proof/Machine/Operands.lean ====
section
/-! DEFINITION. The operand forms of the requests: little-endian fields (4.6) and the argument
layouts of 12.2. A parser answers `none` exactly when the length is not one that 12.2 gives the
request (R186); the checks of values belong to the request's own rule. -/

namespace Sys2Proof.Machine

/-! ### Little-endian fields -/

def le16 (x : Half) : List Byte := [x.extractLsb' 0 8, x.extractLsb' 8 8]

def le32 (x : Word32) : List Byte :=
  [x.extractLsb' 0 8, x.extractLsb' 8 8, x.extractLsb' 16 8, x.extractLsb' 24 8]

/-- The 16-bit field whose low byte comes first. -/
def half (b0 b1 : Byte) : Half := b1 ++ b0

/-- The 32-bit field whose low byte comes first. -/
def word (b0 b1 b2 b3 : Byte) : Word32 := b3 ++ b2 ++ b1 ++ b0

def u8 (n : Nat) : List Byte := [BitVec.ofNat 8 n]

def u16 (n : Nat) : List Byte := le16 (BitVec.ofNat 16 n)

def u32 (n : Nat) : List Byte := le32 (BitVec.ofNat 32 n)

def s16 (i : Int) : List Byte := le16 (BitVec.ofInt 16 i)

def s32 (i : Int) : List Byte := le32 (BitVec.ofInt 32 i)

/-! ### Argument layouts -/

def parseNone : List Byte → Option Unit
  | [] => some ()
  | _ => none

def parseU8 : List Byte → Option Byte
  | [b] => some b
  | _ => none

def parseU16 : List Byte → Option Half
  | [b0, b1] => some (half b0 b1)
  | _ => none

def parseU32 : List Byte → Option Word32
  | [b0, b1, b2, b3] => some (word b0 b1 b2 b3)
  | _ => none

def parseS32 (args : List Byte) : Option Int := (parseU32 args).map BitVec.toInt

/-- SET CHAINAGE: value s32, expected epoch u16. -/
def parseSetChainage : List Byte → Option (Int × Half)
  | [b0, b1, b2, b3, e0, e1] => some ((word b0 b1 b2 b3).toInt, half e0 e1)
  | _ => none

/-- RUN START: offset s32, direction u8, label of 0 to 16 bytes (R186). -/
def parseRunStart : List Byte → Option (Int × Byte × List Byte)
  | b0 :: b1 :: b2 :: b3 :: d :: label =>
    if label.length ≤ 16 then some ((word b0 b1 b2 b3).toInt, d, label) else none
  | _ => none

/-- CONFIG SET: name code u8, value s32. -/
def parseConfigSet : List Byte → Option (Byte × Int)
  | [c, b0, b1, b2, b3] => some (c, (word b0 b1 b2 b3).toInt)
  | _ => none

/-- STILL: an optional code, present exactly when the payload holds it (R186). -/
def parseStill : List Byte → Option (Option Half)
  | [] => some none
  | [b0, b1] => some (some (half b0 b1))
  | _ => none

def parseWeights : List Byte → Option (Four Nat)
  | [w0, w1, w2, w3] => some ⟨w0.toNat, w1.toNat, w2.toNat, w3.toNat⟩
  | _ => none

/-- PRESET WRITE: preset u8, four weights. -/
def parsePresetWrite : List Byte → Option (Byte × Four Nat)
  | k :: ws => (parseWeights ws).map fun w => (k, w)
  | [] => none

/-- ATTITUDE: incline s16, roll s16. -/
def parseAttitude : List Byte → Option (Int × Int)
  | [i0, i1, r0, r1] => some ((half i0 i1).toInt, (half r0 r1).toInt)
  | _ => none

/-- POSE: pan s16, tilt s16, zoom step u8. -/
def parsePose : List Byte → Option (Int × Int × Nat)
  | [p0, p1, t0, t1, z] => some ((half p0 p1).toInt, (half t0 t1).toInt, z.toNat)
  | _ => none

/-- NOTE: a text of 0 to 32 bytes. -/
def parseNote (args : List Byte) : Option (List Byte) :=
  if args.length ≤ 32 then some args else none

/-- The arguments of WAYPOINT PLACE, before the checks of R42. -/
structure PlaceArgs where
  slot : Byte
  point : Int
  sense : Byte
  action : Byte
  preset : Option Byte
  code : Option Half
  interval : Option Nat
  remaining : Option Nat
  deriving DecidableEq, Repr

/-- A field of one byte, when it is marked. -/
def takeU8 (marked : Bool) (bs : List Byte) : Option (Option Byte × List Byte) :=
  if marked then
    match bs with
    | b :: rest => some (some b, rest)
    | [] => none
  else some (none, bs)

/-- A field of two bytes, when it is marked. -/
def takeU16 (marked : Bool) (bs : List Byte) : Option (Option Half × List Byte) :=
  if marked then
    match bs with
    | b0 :: b1 :: rest => some (some (half b0 b1), rest)
    | _ => none
  else some (none, bs)

/-- A field of four bytes, when it is marked. -/
def takeU32 (marked : Bool) (bs : List Byte) : Option (Option Word32 × List Byte) :=
  if marked then
    match bs with
    | b0 :: b1 :: b2 :: b3 :: rest => some (some (word b0 b1 b2 b3), rest)
    | _ => none
  else some (none, bs)

/-- WAYPOINT PLACE (12.2): slot, presence mask, point, sense, action, then the marked fields in the
order preset, code, interval, remaining; the length is exactly that of the marked fields. Mask bits
4 to 7 are not assigned and are ignored (R186). -/
def parsePlace : List Byte → Option PlaceArgs
  | slot :: mask :: b0 :: b1 :: b2 :: b3 :: sense :: action :: fields =>
    match takeU8 (mask.getLsbD 0) fields with
    | none => none
    | some (preset, fields) =>
      match takeU16 (mask.getLsbD 1) fields with
      | none => none
      | some (code, fields) =>
        match takeU32 (mask.getLsbD 2) fields with
        | none => none
        | some (interval, fields) =>
          match takeU16 (mask.getLsbD 3) fields with
          | some (remaining, []) =>
            some ⟨slot, (word b0 b1 b2 b3).toInt, sense, action, preset, code,
              interval.map BitVec.toNat, remaining.map BitVec.toNat⟩
          | _ => none
  | _ => none

/-- A number below 4 as an index. -/
def fin4? (n : Nat) : Option (Fin 4) := if h : n < 4 then some ⟨n, h⟩ else none

/-- A slot number below 16. -/
def fin16? (n : Nat) : Option (Fin 16) := if h : n < 16 then some ⟨n, h⟩ else none

end Sys2Proof.Machine
end

