-- ==== Sys2Proof/Machine/Flags.lean ====
section
/-! DEFINITION. The codes of enumerated fields (ch. 12) and every flag field that a bus partner
sees: position flags, header flags, frame flags, event bits, summary byte, presence masks. -/

namespace Sys2Proof.Machine

/-- The number whose bits are the list, bit 0 first. -/
def packBits : List Bool → Nat
  | [] => 0
  | b :: bs => b.toNat + 2 * packBits bs

/-! ### Codes of enumerated fields (head of ch. 12, 12.1) -/

def Source.code : Source → Nat
  | .wheel => 0
  | .cable => 1
  | .none => 2

def Agreement.code : Agreement → Nat
  | .agree => 0
  | .slip => 1
  | .slack => 2

def Port.code : Port → Nat
  | .surface => 0
  | .drive => 1
  | .head => 2

/-- Origin kind in bits 4 to 6, slot or line number in bits 0 to 3 (12.3, 12.4). -/
def Cause.code : Cause → Nat
  | .port p => 16 * Port.code p
  | .waypoint slot => 16 * 3 + slot.val
  | .line n => 16 * 4 + n.val
  | .halt => 16 * 5

def Sense.code : Sense → Nat
  | .rising => 0
  | .falling => 1
  | .both => 2

def Sense.ofCode : Nat → Option Sense
  | 0 => some .rising
  | 1 => some .falling
  | 2 => some .both
  | _ => none

def Side.code : Side → Nat
  | .below => 0
  | .above => 1

def Action.code : Action → Nat
  | .mark => 0
  | .still => 1
  | .halt => 2
  | .haltStill => 3
  | .preset _ => 4

def Direction.code : Direction → Nat
  | .withFlow => 0
  | .againstFlow => 1

def Direction.ofCode : Nat → Option Direction
  | 0 => some .withFlow
  | 1 => some .againstFlow
  | _ => none

def LampMode.code : LampMode → Nat
  | .off => 0
  | .strobe => 1
  | .steady => 2

def LampMode.ofCode : Nat → Option LampMode
  | 0 => some .off
  | 1 => some .strobe
  | 2 => some .steady
  | _ => none

def JournalMode.code : JournalMode → Nat
  | .wrap => 0
  | .hold => 1

def JournalMode.ofCode : Nat → Option JournalMode
  | 0 => some .wrap
  | 1 => some .hold
  | _ => none

def RunState.code : RunState → Nat
  | .idle => 0
  | .survey => 1

def ClaimState.code : ClaimState → Nat
  | .settled => 0
  | .pending _ => 1

/-- Halt state: 0 IDLE, 1 ASKED, 2 SETTLING, 3 STANDING. -/
def haltStateCode : Option HaltSeq → Nat
  | none => 0
  | some q =>
    match q.state with
    | .asked => 1
    | .settling => 2
    | .standing => 3

def HaltKind.code : HaltKind → Nat
  | .halt => 0
  | .haltStill => 1

def HaltPhase.code : HaltPhase → Nat
  | .asked => 0
  | .acked => 1
  | .standing => 2
  | .moved => 3
  | .done => 4
  | .timeout => 5
  | .resumed => 6

def HaltOrigin.code : HaltOrigin → Nat
  | .surface => 0
  | .waypoint slot _ => 16 * 3 + slot.val

/-- The owner byte of a HALT record, 0 for origin SURFACE (12.4). -/
def HaltOrigin.ownerCode : HaltOrigin → Nat
  | .surface => 0
  | .waypoint _ owner => Port.code owner

/-- The requester byte of a REREF record: kind in bits 4 and 5, line in bits 0 and 1 (12.4). -/
def Requester.code : Requester → Nat
  | .zero => 0
  | .set => 16
  | .line n => 32 + n.val
  | .runStart => 48

def SourceMode.code : SourceMode → Int
  | .cable => 0
  | .wheel => 1
  | .blend => 2

def SourceMode.ofCode : Int → Option SourceMode
  | 0 => some .cable
  | 1 => some .wheel
  | 2 => some .blend
  | _ => none

def LineFunction.code : LineFunction → Int
  | .none => 0
  | .zero => 1
  | .still => 2
  | .mark => 3
  | .resume => 4

def LineFunction.ofCode : Int → Option LineFunction
  | 0 => some .none
  | 1 => some .zero
  | 2 => some .still
  | 3 => some .mark
  | 4 => some .resume
  | _ => Option.none

def Polarity.code : Polarity → Int
  | .activeLow => 0
  | .activeHigh => 1

def Polarity.ofCode : Int → Option Polarity
  | 0 => some .activeLow
  | 1 => some .activeHigh
  | _ => none

/-- Status codes of 12.1. -/
def Status.code : Status → Byte
  | .ok => 0x00
  | .pending => 0x01
  | .none => 0x02
  | .gap => 0x03
  | .busy => 0x10
  | .state => 0x11
  | .range => 0x12
  | .rights => 0x13
  | .owner => 0x14
  | .full => 0x15
  | .stale => 0x16
  | .conflict => 0x17
  | .unknown => 0x18
  | .length => 0x19
  | .notReady => 0x1A

/-! ### Events -/

/-- The bit of an event in latch and mask (12.1). -/
def Event.index : Event → Nat
  | .grant => 0
  | .expired => 1
  | .halt => 2
  | .reref => 3
  | .journal => 4
  | .state => 5
  | .sag => 6
  | .restart => 7
  | .link => 8

/-- The latch or mask that holds one event alone. -/
def Event.bit (e : Event) : BitVec 9 := 1#9 <<< e.index

/-- The event summary byte of a latch under a mask (R174, 12.1): bits 0, 1 and 3 to 7 as in the
latch, bit 2 shared by HALT and LINK. -/
def summaryByte (latch mask : BitVec 9) : Byte :=
  let shown := latch &&& mask
  shown.truncate 8 ||| (if shown.getLsbD 8 then 0x04 else 0x00)

/-! ### Position, header and frame flags -/

/-- Position flags (12.3): bits 0 and 1 source, 2 and 3 agreement, 4 WHEEL_FAULT, 5 CABLE_LOST,
6 SAT, 7 HELD. -/
def positionFlags (source : Source) (agreement : Agreement) (wheelFault cableLost sat held : Bool) :
    Nat :=
  source.code + 4 * agreement.code + 16 * packBits [wheelFault, cableLost, sat, held]

def Published.flags (p : Published) : Nat :=
  positionFlags p.source p.agreement p.wheelFault p.cableLost p.sat p.held

/-- Header flags (12.4): the position flags, and bit 8 the header cause. -/
def Header.flags (h : Header) : Nat :=
  positionFlags h.source h.agreement h.wheelFault h.cableLost h.sat h.held + 256 * h.capture.toNat

/-- Frame flags (12.3), bit 0 STILL to bit 8 DWELL. -/
def FrameFlags.bits (f : FrameFlags) : Nat :=
  packBits [f.still, f.underlit, f.overlit, f.shed, f.held, f.sat, f.moving, f.statsLate, f.dwell]

/-- The causes of a STATE record, bits 0 to 3 (12.4). -/
def StateCauses.bits (c : StateCauses) : Nat :=
  packBits [c.agreement, c.wheelFault, c.cableLost, c.reelJump]

end Sys2Proof.Machine
end

