-- ==== Sys2Proof/Machine/Ops.lean ====
section
/-! DEFINITION. Operations shared by the blocks: one of three or four things, the model's clock, the
event latches, the attention lines, and the published state that every reader takes whole. -/

namespace Sys2Proof.Machine

/-! ### One of three, one of four -/

def PerPort.get (x : PerPort α) : Port → α
  | .surface => x.surface
  | .drive => x.drive
  | .head => x.head

def PerPort.set (x : PerPort α) (p : Port) (v : α) : PerPort α :=
  match p with
  | .surface => { x with surface := v }
  | .drive => { x with drive := v }
  | .head => { x with head := v }

def Four.get (x : Four α) : Fin 4 → α
  | 0 => x.c0
  | 1 => x.c1
  | 2 => x.c2
  | 3 => x.c3

def Four.set (x : Four α) (i : Fin 4) (v : α) : Four α :=
  match i with
  | 0 => { x with c0 := v }
  | 1 => { x with c1 := v }
  | 2 => { x with c2 := v }
  | 3 => { x with c3 := v }

def Four.map (f : α → β) (x : Four α) : Four β := ⟨f x.c0, f x.c1, f x.c2, f x.c3⟩

def Four.toList (x : Four α) : List α := [x.c0, x.c1, x.c2, x.c3]

def Four.sum (x : Four Nat) : Nat := x.c0 + x.c1 + x.c2 + x.c3

/-! ### Arithmetic words of 4.2 -/

/-- "replace a value below a by a and a value above b by b". -/
def clampInt (a b x : Int) : Int := if x < a then a else if b < x then b else x

def clampNat (a b x : Nat) : Nat := if x < a then a else if b < x then b else x

/-- The least natural number not below x / y. -/
def ceilDiv (x y : Nat) : Nat := (x + (y - 1)) / y

/-- "wraps 65,535 to 1": a 16-bit counter that skips 0. -/
def nextSkippingZero (x : Half) : Half := if x = 0xFFFF then 1 else x + 1

/-- CH_MIN (R19). -/
def chMin : Int := -100000

/-- CH_MAX (R19). -/
def chMax : Int := 3000000

/-! ### The model's clock (log 2) -/

def ticksOfUs (us : Nat) : Nat := 2 * us

def ticksOfMs (ms : Nat) : Nat := 2000 * ms

/-- Whole ms in a stretch of ticks. -/
def msOfTicks (ticks : Nat) : Nat := ticks / 2000

/-- The clock at time t, or where it stands when it is already past t (log 3): an expiry that is
taken has come about, so its time has been reached. -/
def State.reach (t : Nat) (s : State) : State := { s with now := max s.now t }

/-- While RESET is asserted every block is held: no request is received, no timer runs and no sample
is taken (R182). -/
def State.whenRunning (f : State → State) (s : State) : State := if s.resetLine then s else f s

/-! ### The filters (R1, R72, R179) -/

/-- A sample meets a filter of a width in samples: the candidate is ripe at the sample at which the
level has been seen on every sample for the width after the one that started it. -/
def filterSample (accepted level : Bool) (width : Nat) (c : Option Candidate) : Option Candidate :=
  if level = accepted then none
  else
    let age := match c with
      | some c => c.age + 1
      | none => 0
    some ⟨age, decide (width ≤ age)⟩

/-- A running candidate is judged against a new width, measured from the sample that started it: a
wider one un-ripens it, and one that has already passed is met at the next sample that still shows the
level (R1, R181). -/
def rejudge (width : Nat) (c : Option Candidate) : Option Candidate :=
  c.map fun c => { c with ripe := c.ripe && decide (width ≤ c.age) }

/-- The width of the TSAG filter, 2 µs (R72). -/
def tsagWidth : Nat := 4

/-- The debounce width of line n in samples (R179). -/
def Settings.lineWidth (c : Settings) (n : Fin 4) : Nat := ticksOfMs (c.lines.get n).debounce

/-! ### Event latches (R173, R174) -/

/-- An event set on a port joins its latch, once. -/
def State.setEvent (p : Port) (e : Event) (s : State) : State :=
  { s with pi := { s.pi with latches := s.pi.latches.set p (s.pi.latches.get p ||| e.bit) } }

/-- An event set on all three ports. -/
def State.setEventAll (e : Event) (s : State) : State :=
  ((s.setEvent .surface e).setEvent .drive e).setEvent .head e

/-- The event summary byte of a port's answers (R170, R174). -/
def State.summary (p : Port) (s : State) : Byte := summaryByte (s.pi.latches.get p) (s.pi.masks.get p)

/-- DATN: asserted while the drive latch holds an unmasked event, at rest during RESET. -/
def State.datn (s : State) : Bool := !s.resetLine && (s.pi.latches.drive &&& s.pi.masks.drive) != 0

/-- HATN follows the head latch in the same way. -/
def State.hatn (s : State) : Bool := !s.resetLine && (s.pi.latches.head &&& s.pi.masks.head) != 0

/-- DHALT is asserted exactly while the halt sequence is not IDLE or link halt is set (R132). -/
def HaltController.dhalt (h : HaltController) : Bool := h.seq.isSome || h.linkHalt

/-- The DHALT line, at rest during RESET (R182). -/
def State.dhalt (s : State) : Bool := !s.resetLine && s.hc.dhalt

/-- XP is high exactly in EXPOSE (R78), at rest during RESET. -/
def State.xp (s : State) : Bool := !s.resetLine && s.fs.phase = .expose

/-! ### The published state (R25) -/

/-- HELD is set exactly while the trusted track is NONE (R17). -/
def Chainage.held (c : Chainage) : Bool := c.trusted = .none

/-- One read of the published state. -/
def Chainage.published (c : Chainage) : Published where
  chainage := c.chainage
  epoch := c.epoch
  source := c.trusted
  held := c.held
  agreement := c.agreement
  wheelFault := c.wheelFault
  cableLost := c.cableLost
  sat := c.sat
  velocity := c.velocity
  runNumber := c.runNumber
  runState := c.runState
  runClock := c.runClock

/-- A record header filled from a read of the published state (R145). -/
def Published.header (p : Published) (capture : Bool) : Header where
  runNumber := p.runNumber
  runClock := p.runClock
  chainage := p.chainage
  epoch := p.epoch
  source := p.source
  agreement := p.agreement
  wheelFault := p.wheelFault
  cableLost := p.cableLost
  sat := p.sat
  held := p.held
  capture := capture

end Sys2Proof.Machine
end

