-- ==== Sys2Proof/Machine/Store.lean ====
section
/-! DEFINITION. The journal's store (9.3): handing a record, room by eviction, drops, LOST records,
the end of the numbers, and the JOURNAL event. -/

namespace Sys2Proof.Machine

/-- Words that hold a text of n bytes. -/
def textWords (n : Nat) : Nat := (n + 3) / 4

/-- Words of an optional part. -/
def partWords (part : Option α) (n : Nat) : Nat := if part.isSome then n else 0

/-- Length in words of the whole record with this body, header included (R146, 12.4). -/
def Body.words : Body → Nat
  | .runOpen _ label => 6 + textWords label.length
  | .runClose .. => 8
  | .reref .. => 7
  | .state .. => 6
  | .mark _ _ _ _ code => 7 + partWords code 1
  | .still _ code f => 10 + partWords code 1 + partWords f.attitude 1 + partWords f.pose 2
  | .frame f => 10 + partWords f.attitude 1 + partWords f.pose 2
  | .halt _ _ _ requester => 6 + partWords requester 1
  | .sag duration => 6 + partWords duration 1
  | .lost .. => 8
  | .restart => 5
  | .note text => 6 + textWords text.length

/-- The store holds 8,192 words (R144). -/
def storeWords : Nat := 8192

/-- Words of the stored records. -/
def usedWords (rs : List Record) : Nat := (rs.map fun r => r.body.words).sum

/-- The number at which the journal is exhausted (R151). -/
def exhaustedNumber : Nat := 4294967295

/-- The largest drop count (R150). -/
def maxDrops : Nat := 4294967295

/-- Base: the number of the oldest stored record, or N when the store is empty (9.1). -/
def Journal.base (j : Journal) : Nat := j.next - j.store.length

/-- A record at or above the cursor of a BOUND port is protected (R149). -/
def Journal.protects (j : Journal) (r : Record) : Bool :=
  (j.bound.surface && decide (j.cursors.surface ≤ r.seq)) ||
  (j.bound.drive && decide (j.cursors.drive ≤ r.seq)) ||
  (j.bound.head && decide (j.cursors.head ≤ r.seq))

/-- Whether the mode in force allows the eviction of a record (R148, R149). -/
def Journal.evictable (j : Journal) (r : Record) : Bool :=
  match j.mode with
  | .wrap => true
  | .hold => !j.protects r

/-- Evict oldest records while the length needed does not fit; `none` when it could fit only by
evicting a record that may not go (R148, R149). -/
def makeRoom (evictable : Record → Bool) (need : Nat) : List Record → Option (List Record)
  | [] => if need ≤ storeWords then some [] else none
  | r :: rs =>
    if need + usedWords (r :: rs) ≤ storeWords then some (r :: rs)
    else if evictable r then makeRoom evictable need rs
    else none

/-- A dropped record is counted; the drop that raises the count from 0 keeps the run clock (R150). -/
def State.countDrop (s : State) : State :=
  { s with jn := { s.jn with
      dropCount := min (s.jn.dropCount + 1) maxDrops
      firstDrop := if s.jn.dropCount = 0 then some s.cu.runClock else s.jn.firstDrop } }

/-- The JOURNAL event on a port whose cursor equals the number stored (R158). -/
def State.notifyPort (seq : Nat) (p : Port) (s : State) : State :=
  if s.jn.cursors.get p = seq then s.setEvent p .journal else s

/-- The JOURNAL event on each port whose cursor equals the number stored (R158). -/
def State.notifyStored (seq : Nat) (s : State) : State :=
  ((s.notifyPort seq .surface).notifyPort seq .drive).notifyPort seq .head

/-- Store one record with the next number at the newest end of the records kept (R147). -/
def State.storeRecord (kept : List Record) (h : Header) (b : Body) (s : State) : State :=
  ({ s with jn := { s.jn with store := kept ++ [Record.mk s.jn.next h b], next := s.jn.next + 1 } }).notifyStored
    s.jn.next

/-- After a LOST record the drop count is 0 and the first-drop clock absent (R150). -/
def State.clearDrops (s : State) : State :=
  { s with jn := { s.jn with dropCount := 0, firstDrop := none } }

/-- The body of the LOST record that reports n drops (R150). -/
def Journal.lostBody (j : Journal) (n : Nat) : Body := .lost n (j.firstDrop.getD 0)

/-- The header of a record made now (R145). -/
def State.header (s : State) : Header := s.cu.published.header false

/-- Hand a record to the journal: the state after, and the number it received, 0 when it was dropped
(R147 to R151, R159). -/
def State.handRecord (h : Header) (b : Body) (s : State) : State × Nat :=
  let j := s.jn
  if exhaustedNumber ≤ j.next then (s.countDrop, 0)
  else if j.dropCount = 0 then
    match makeRoom j.evictable b.words j.store with
    | some kept => (s.storeRecord kept h b, j.next)
    | none => (s.countDrop, 0)
  else if j.next + 1 = exhaustedNumber then
    -- one number remains: the record handed is dropped, the LOST record alone is stored (R151)
    let dropped := s.countDrop
    match makeRoom j.evictable 8 j.store with
    | some kept =>
      ((dropped.storeRecord kept s.header (dropped.jn.lostBody dropped.jn.dropCount)).clearDrops, 0)
    | none => (dropped, 0)
  else
    match makeRoom j.evictable (8 + b.words) j.store with
    | some kept =>
      let withLost := s.storeRecord kept s.header (j.lostBody j.dropCount)
      ((withLost.storeRecord withLost.jn.store h b).clearDrops, j.next + 1)
    | none => (s.countDrop, 0)

/-- Hand a record whose header is a read of the published state made now (header cause PUBLISHED). -/
def State.journal (b : Body) (s : State) : State := (s.handRecord s.header b).1

end Sys2Proof.Machine
end

