-- ==== Sys2Proof/Machine/Lamps.lean ====
section
/-! DEFINITION. The lamp driver's operations (chapter 6): distribution, PWM pairs, the outputs at a
boundary, preset selection, and the dwell state. -/

namespace Sys2Proof.Machine

/-! ### Distribution (R109, R110) -/

/-- The lowest-numbered channel of highest weight (R109). -/
def topChannel (w : Four Nat) : Fin 4 :=
  if w.c1 ≤ w.c0 ∧ w.c2 ≤ w.c0 ∧ w.c3 ≤ w.c0 then 0
  else if w.c2 ≤ w.c1 ∧ w.c3 ≤ w.c1 then 1
  else if w.c3 ≤ w.c2 then 2
  else 3

/-- Four weights of 0 are each taken as 1 for the distribution (R109). -/
def effectiveWeights (w : Four Nat) : Four Nat := if w.sum = 0 then .all 1 else w

/-- The four levels before the clamp: the shares, with the remainder on the top channel (R109). -/
def sharesOf (d : Nat) (weights : Four Nat) : Four Nat :=
  let w := effectiveWeights weights
  let shares := w.map fun wc => d * wc / w.sum
  let top := topChannel w
  shares.set top (shares.get top + (d - shares.sum))

/-- The four channel levels for a total level d, clamped to the channel maximum (R110). -/
def distribute (d : Nat) (weights : Four Nat) (channelMax : Nat) : Four Nat :=
  (sharesOf d weights).map fun level => min level channelMax

/-! ### PWM (R112, R113) -/

/-- The PWM pair of a level: on-steps floor(1,024 × Dc / channel maximum), the rest off (R112). -/
def pwmPair (channelMax level : Nat) : PwmPair :=
  let on := 1024 * level / channelMax
  ⟨on, 1024 - on, channelMax⟩

/-- What a channel is driven at as its period begins (R112). -/
def PwmPair.drive (p : PwmPair) : Nat := if p.on = 0 then 0 else p.max

/-- A period begins now with the pending pairs (R113). -/
def LampDriver.startPeriod (now : Nat) (l : LampDriver) : LampDriver :=
  { l with
    activePairs := l.pendingPairs
    activeLevels := l.pendingLevels
    pwmStart := some now
    outputs := l.pendingPairs.map PwmPair.drive }

/-- Every output off at once, in whatever phase it stands, and the PWM period timer stopped (R105,
R116, R117). The active pairs stand: R105 and R116 say nothing of them where no PWM runs (DESIGN CHOICE,
log 19 at a boundary and log 32 at a sag assertion). -/
def LampDriver.cut (l : LampDriver) : LampDriver :=
  { l with activeLevels := .all 0, pwmStart := none, outputs := .all 0 }

/-! ### The boundary (R105, R108, R110) -/

/-- The levels of the starting frame reach the lamp driver (R105): `previous` is the mode of the
frame before, OFF after power-on and RESTART; `held` says that a sag hold stays in force; `ended`
that this boundary ends one. -/
def LampDriver.takeLevels (now : Nat) (previous : LampMode) (held ended : Bool) (levels : Four Nat)
    (l : LampDriver) : LampDriver :=
  match l.mode with
  | .off => { l.cut with pendingLevels := .all 0 }
  | .strobe => { l.cut with pendingLevels := levels }
  | .steady =>
    let l := { l with pendingLevels := levels, pendingPairs := levels.map (pwmPair l.channelMax) }
    if held then l.cut
    else if previous ≠ .steady ∨ ended then l.startPeriod now
    else l

/-- Strobe on: each channel's active level becomes its pending level (R111). -/
def LampDriver.light (l : LampDriver) : LampDriver :=
  { l with activeLevels := l.pendingLevels, outputs := l.pendingLevels }

/-- A RESTART sets every level to 0 and every pair to 0 on-steps (R117). -/
def LampDriver.restart (l : LampDriver) : LampDriver :=
  { l.cut with
    pendingLevels := .all 0
    pendingPairs := .all ⟨0, 1024, 0⟩
    activePairs := .all ⟨0, 1024, 0⟩ }

/-! ### Presets (R108) -/

/-- A selection copies a preset into the pending weights at once (R108, R56). -/
def State.selectPreset (k : Fin 4) (s : State) : State :=
  { s with ld := { s.ld with pendingWeights := s.ld.presets.get k } }

/-! ### Dwell (R114, R115) -/

/-- The standstill time in ms; stopped, it is 0 (R114). -/
def State.standstillMs (s : State) : Nat :=
  match s.ld.standstill with
  | some start => msOfTicks (s.now - start)
  | none => 0

/-- The crawler moves or is being halted: the standstill time becomes 0 and stops, and the dwell
state is AWAKE (R114). -/
def State.wake (s : State) : State := { s with ld := { s.ld with standstill := none, dwell := false } }

/-- The standstill time counts from 0 if the velocity is 0 and the halt sequence IDLE (R114). -/
def State.startStandstill (s : State) : State :=
  { s with ld := { s.ld with
      standstill := if s.cu.velocity = 0 ∧ s.hc.seq = none then some s.now else none } }

/-- A gate has changed the velocity from `old` (R114). -/
def State.dwellAtGate (old : Int) (s : State) : State :=
  if s.cu.velocity ≠ 0 then s.wake
  else if old ≠ 0 then s.startStandstill
  else s

/-- A boundary has taken an entry from the still queue, after it has read the dwell state (R114). -/
def State.dwellAtStill (s : State) : State :=
  let s := { s with ld := { s.ld with dwell := false } }
  s.startStandstill

/-- The standstill time reaches the dwell time with the still queue empty (R114): the count is at or
past a non-zero dwell time. -/
def State.dwellReached (s : State) : Bool :=
  s.cfg.dwellTime ≠ 0 && s.ld.standstill.isSome && decide (s.cfg.dwellTime ≤ s.standstillMs) && s.sq.isEmpty

/-- A dwell time just written acts at once (R115). -/
def State.dwellTimeWritten (s : State) : State :=
  if s.ld.dwell then
    if s.cfg.dwellTime = 0 then { s with ld := { s.ld with dwell := false } } else s
  else if s.dwellReached then { s with ld := { s.ld with dwell := true } }
  else s

end Sys2Proof.Machine
end

