-- ==== Sys2Proof/Machine/Halts.lean ====
section
/-! DEFINITION. The still queue and the halt controller (chapter 7): joining and inserting stills,
starting, settling and ending a halt sequence, link halt, and the HALT event of the DHALT line. -/

namespace Sys2Proof.Machine

/-! ### The still queue -/

/-- The still queue holds at most four entries (R119). -/
def stillPlaces : Nat := 4

/-- An entry joins at the tail (R119). -/
def State.joinStill (e : StillEntry) (s : State) : State := { s with sq := s.sq ++ [e] }

/-- The MARK record of a still that was dropped (R121, R122). -/
def droppedStillMark (source : Cause) (code : Option Half) : Body := .mark source false true 1 code

/-- The halt still of a sequence (R122). -/
def haltStillEntry (moving : Bool) : StillEntry := ⟨.halt, none, moving⟩

/-- A halt still is inserted at the head; a full queue first loses its newest entry, which is
journaled (R122). -/
def State.insertHaltStill (moving : Bool) (s : State) : State :=
  if s.sq.length < stillPlaces then { s with sq := haltStillEntry moving :: s.sq }
  else
    let s' := { s with sq := haltStillEntry moving :: s.sq.dropLast }
    match s.sq.getLast? with
    | some e => s'.journal (droppedStillMark e.source e.code)
    | none => s'

/-! ### The DHALT line and the sequence's state -/

/-- The halt controller's new state; a change of the DHALT level sets HALT on the drive port
(R132). -/
def State.setHalt (h : HaltController) (s : State) : State :=
  let s' := { s with hc := h }
  if h.dhalt = s.hc.dhalt then s' else s'.setEvent .drive .halt

/-- The sequence's new state, with its effects on the dwell count: leaving IDLE stops it, returning
to IDLE lets it count from 0 (R114). -/
def State.setSeq (q : Option HaltSeq) (s : State) : State :=
  let s' := s.setHalt { s.hc with seq := q }
  if s.hc.seq.isNone && q.isSome then s'.wake
  else if s.hc.seq.isSome && q.isNone then s'.startStandstill
  else s'

/-- The HALT record of a sequence at a phase (R135). -/
def HaltSeq.record (q : HaltSeq) (phase : HaltPhase) (requester : Option Cause) : Body :=
  .halt phase q.kind q.origin requester

/-- A halt sequence starts in ASKED (R124). -/
def State.startHalt (kind : HaltKind) (origin : HaltOrigin) (s : State) : State :=
  let q : HaltSeq :=
    { state := .asked, kind := kind, origin := origin, unconfirmed := false, moved := false
      stillMark := .none, haltDue := some (s.now + ticksOfMs s.cfg.haltTimeout), settle := .stopped }
  (s.setSeq (some q)).journal (q.record .asked none)

/-- The sequence ends with a record of the phase given (R128, R130). -/
def State.endHalt (q : HaltSeq) (phase : HaltPhase) (requester : Option Cause) (s : State) : State :=
  (s.setSeq none).journal (q.record phase requester)

/-- The sequence reaches STANDING from SETTLING (R128). -/
def State.reachStanding (q : HaltSeq) (s : State) : State :=
  let mark : StillMark := match q.kind with
    | .halt => .none
    | .haltStill => .queued
  let s := (s.setSeq (some { q with
    state := .standing, haltDue := none, settle := .stopped, stillMark := mark })).journal
      (q.record .standing none)
  match q.kind with
  | .halt => s
  | .haltStill => s.insertHaltStill false

/-- The settle timer starts from 0 with the settle time in force; a settle time of 0 brings STANDING
at once (R127). -/
def State.startSettle (q : HaltSeq) (s : State) : State :=
  if s.cfg.settleTime = 0 then s.reachStanding q
  else s.setSeq (some { q with settle := .running (s.now + ticksOfMs s.cfg.settleTime) })

/-- SETTLING begins: the timer starts at a velocity of 0 and waits at any other (R127). -/
def State.beginSettling (q : HaltSeq) (s : State) : State :=
  let q := { q with state := .settling }
  if s.cu.velocity = 0 then s.startSettle q
  else s.setSeq (some { q with settle := .waiting })

/-- A velocity gate reaches the halt controller: the settle timer of SETTLING (R127), the first
motion of STANDING (R128). -/
def State.haltAtGate (s : State) : State :=
  match s.hc.seq with
  | none => s
  | some q =>
    match q.state with
    | .asked => s
    | .settling =>
      if s.cu.velocity ≠ 0 then s.setSeq (some { q with settle := .waiting })
      else
        match q.settle with
        | .running _ => s
        | _ => s.startSettle q
    | .standing =>
      if s.cu.velocity ≠ 0 ∧ q.moved = false then
        (s.setSeq (some { q with moved := true })).journal (q.record .moved none)
      else s

/-- The SQ reports that a halt still has been taken: QUEUED becomes TAKEN (R128). -/
def State.haltStillTaken (s : State) : State :=
  match s.hc.seq with
  | some q => if q.stillMark = .queued then s.setSeq (some { q with stillMark := .taken }) else s
  | none => s

/-- The exposure of a still of source HALT has ended (R128). -/
def State.haltStillExposed (s : State) : State :=
  match s.hc.seq with
  | some q =>
    if q.kind = .haltStill ∧ q.state = .standing ∧ q.stillMark = .taken then s.endHalt q .done none else s
  | none => s

/-- The halt timer expires in ASKED or SETTLING (R129). -/
def State.haltTimedOut (q : HaltSeq) (s : State) : State :=
  let s := s.journal (q.record .timeout none)
  match q.kind with
  | .halt =>
    s.setSeq (some { q with state := .standing, unconfirmed := true, haltDue := none, settle := .stopped })
  | .haltStill => (s.insertHaltStill true).setSeq none

/-! ### Link halt (R131, R165) -/

/-- The surface link is lost: link halt sets, DHALT follows, LINK is set on the drive and head ports,
and the timer stops. -/
def State.loseLink (s : State) : State :=
  let s := s.setHalt { s.hc with linkHalt := true }
  let s := (s.setEvent .drive .link).setEvent .head .link
  { s with pi := { s.pi with linkDue := none } }

/-- A valid surface frame restarts the link timer from 0, and restores a lost link first (R165). -/
def State.hearSurface (s : State) : State :=
  let s := if s.hc.linkHalt then
      ((s.setHalt { s.hc with linkHalt := false }).setEvent .drive .link).setEvent .head .link
    else s
  { s with pi := { s.pi with linkDue := some (s.now + ticksOfMs 2000) } }

end Sys2Proof.Machine
end

