-- ==== Sys2Proof/Machine/Waypoints.lean ====
section
/-! DEFINITION. The waypoint table's operations (chapter 3): sides, crossing, firing with its advance
and its action, and the recomputation of sides. -/

namespace Sys2Proof.Machine

/-- The slot numbers in ascending order (R48). -/
def slotNumbers : List (Fin 16) := [0, 1, 2, 3, 4, 5, 6, 7, 8, 9, 10, 11, 12, 13, 14, 15]

def State.slot (i : Fin 16) (s : State) : Slot := s.wt[i]

def State.setSlot (i : Fin 16) (x : Slot) (s : State) : State := { s with wt := s.wt.set i x }

/-- The side of a point: BELOW while the chainage is less than it, ABOVE otherwise (R41). -/
def sideOf (chainage point : Int) : Side := if chainage < point then .below else .above

/-- Whether the pair of sides matches the sense (R47). -/
def fires (sense : Sense) (before after : Side) : Bool :=
  match sense, before, after with
  | .rising, .below, .above => true
  | .falling, .above, .below => true
  | .both, .below, .above => true
  | .both, .above, .below => true
  | _, _, _ => false

/-- The number n of repeat points crossed, the next point and the side there (R50), for a change
that ends at chainage c. -/
def repeatOf (e : Waypoint) (interval : Nat) (c : Int) : Nat × Int × Side :=
  match e.sense with
  | .falling =>
    let n := ceilDiv (e.point - c).toNat interval
    (n, e.point - interval * n, .above)
  | _ =>
    let n := (c - e.point).toNat / interval + 1
    (n, e.point + interval * n, .below)

/-- The slot after a firing and the n of its action (R49 to R51). -/
def afterFiring (e : Waypoint) (c : Int) : Slot × Nat :=
  match e.interval with
  | none => (.spent e, 1)
  | some interval =>
    let (n, next, side) := repeatOf e interval c
    let remaining := e.remaining.map (· - n)
    if remaining = some 0 ∨ next < chMin ∨ chMax < next then (.spent { e with remaining := remaining }, n)
    else (.armed { e with point := next, remaining := remaining } side, n)

/-- The MARK record of a firing (R52, R53, R55). -/
def firingMark (i : Fin 16) (e : Waypoint) (n : Nat) (haltBusy stillDropped : Bool) : Body :=
  .mark (.waypoint i) haltBusy stillDropped n e.code

/-- A still handed over by slot i (R53). -/
def firingStill (i : Fin 16) (e : Waypoint) : StillEntry := ⟨.waypoint i, e.code, false⟩

/-- A firing of HALT or HALT_STILL: it starts a sequence in IDLE (R54) and is degraded otherwise
(R55). -/
def State.fireHalt (i : Fin 16) (e : Waypoint) (n : Nat) (kind : HaltKind) (s : State) : State :=
  match s.hc.seq with
  | none => s.startHalt kind (.waypoint i e.owner)
  | some _ =>
    match kind with
    | .halt => s.journal (firingMark i e n true false)
    | .haltStill =>
      if s.sq.length < stillPlaces then (s.joinStill (firingStill i e)).journal (firingMark i e n true false)
      else s.journal (firingMark i e n true true)

/-- The action of a firing entry (R52 to R56). -/
def State.performAction (i : Fin 16) (e : Waypoint) (n : Nat) (s : State) : State :=
  match e.action with
  | .mark => s.journal (firingMark i e n false false)
  | .still =>
    if s.sq.length < stillPlaces then s.joinStill (firingStill i e)
    else s.journal (firingMark i e n false true)
  | .halt => s.fireHalt i e n .halt
  | .haltStill => s.fireHalt i e n .haltStill
  | .preset k => s.selectPreset k

/-- One slot meets the new published chainage c: an ARMED entry fires or takes its new side; the
advance is made before the action (R47, R50). -/
def State.crossSlot (c : Int) (s : State) (i : Fin 16) : State :=
  match s.slot i with
  | .armed e side =>
    if fires e.sense side (sideOf c e.point) then
      (s.setSlot i (afterFiring e c).1).performAction i e (afterFiring e c).2
    else s.setSlot i (.armed e (sideOf c e.point))
  | _ => s

/-- A change of the published chainage with cause TRACK: every slot in ascending order, as one act
(R47, R48). -/
def State.crossWaypoints (s : State) : State := slotNumbers.foldl (State.crossSlot s.cu.chainage) s

/-- An ARMED entry's side computed again from the chainage (R41). -/
def Slot.resided (c : Int) : Slot → Slot
  | .armed e _ => .armed e (sideOf c e.point)
  | x => x

/-- A change with cause REREF, or a RESTART: every ARMED entry's side is computed again and none
fires (R57). -/
def State.recomputeSides (s : State) : State := { s with wt := s.wt.map (Slot.resided s.cu.chainage) }

end Sys2Proof.Machine
end

