-- ==== Sys2Proof/Machine/Reckoning.lean ====
section
/-! DEFINITION. The chainage unit's operations (chapters 1 and 2): the trusted track, the agreement
window, increments, the wheel decoder, CABLE_LOST, the re-reference and the close of a run. -/

namespace Sys2Proof.Machine

/-! ### Trust and STATE records (R14, R15) -/

/-- The trusted track of a source mode, an agreement state and the two fault flags (R15). -/
def trustedTrack (mode : SourceMode) (agreement : Agreement) (wheelFault cableLost : Bool) : Source :=
  match mode with
  | .blend =>
    if agreement ≠ .slip ∧ wheelFault = false then .wheel
    else if cableLost = false then .cable
    else .none
  | .cable => if cableLost = false then .cable else .none
  | .wheel => if wheelFault = false then .wheel else .none

/-- The CU chooses its trusted track again (R15). -/
def State.chooseTrust (s : State) : State :=
  { s with cu := { s.cu with
      trusted := trustedTrack s.cfg.sourceMode s.cu.agreement s.cu.wheelFault s.cu.cableLost } }

/-- One STATE record and the STATE event on all three ports (R14); `before` is the agreement state
before the change. -/
def State.journalState (causes : StateCauses) (before : Agreement) (s : State) : State :=
  (s.journal (.state causes before s.cu.agreement s.cu.wheelFault s.cu.cableLost)).setEventAll .state

/-! ### Agreement windows (R10 to R13) -/

/-- The window that opens or is reopened now: the track values as marks, the current settings (R10). -/
def State.newWindow (s : State) : Window where
  wheelMark := s.cu.wheelTrack
  cableMark := s.cu.cableTrack
  w := s.cfg.windowLength
  t := s.cfg.windowLength * s.cfg.toleranceFactor / 256
  k := s.cfg.confirmCount

/-- A reopening keeps the illegal count (R10). -/
def State.reopenWindow (s : State) : State := { s with cu := { s.cu with window := s.newWindow } }

/-- dw and dc, differences modulo 2^32 as signed (R3, R7, R11). -/
def Chainage.windowMoves (c : Chainage) : Int × Int :=
  ((c.wheelTrack - c.window.wheelMark).toInt, (c.cableTrack - c.window.cableMark).toInt)

/-- The class of a close: s, e and the comparison with T (R11). -/
def windowClass (t : Nat) (dw dc : Int) : Agreement :=
  let sign := if dw = 0 then dc.sign else dw.sign
  let e := sign * (dw - dc)
  if e > t then .slip
  else if e < -t then .slack
  else .agree

/-- The agreement state and the differing run after a window of class x, with the K latched for it
(R12). -/
def afterClass (k : Nat) (x : Agreement) (state : Agreement) (run : Option (Agreement × Nat)) :
    Agreement × Option (Agreement × Nat) :=
  if x = state then (state, none)
  else
    let count := match run with
      | some (candidate, n) => if candidate = x then n + 1 else 1
      | none => 1
    if k ≤ count then (x, none) else (state, some (x, count))

/-- The chainage unit after a close (R11 to R13, R4): the class acts unless the window is suspended, a
count of 0 clears WHEEL_FAULT, and the window `next` opens with a count of 0. -/
def Chainage.closing (next : Window) (c : Chainage) : Chainage :=
  let formed := afterClass c.window.k (windowClass c.window.t c.windowMoves.1 c.windowMoves.2)
    c.agreement c.differing
  { c with
    agreement := if c.cableLost then c.agreement else formed.1
    differing := if c.cableLost then c.differing else formed.2
    wheelFault := c.wheelFault && c.illegalCount ≠ 0
    window := next
    illegalCount := 0 }

/-- What a close has changed, of the agreement state and WHEEL_FAULT (R14). -/
def closeCauses (before after : Chainage) : StateCauses where
  agreement := after.agreement ≠ before.agreement
  wheelFault := after.wheelFault ≠ before.wheelFault
  cableLost := false
  reelJump := false

/-- The close of a window (R11 to R14): any change is journaled once, after the trusted track has been
chosen again. -/
def State.closeWindow (s : State) : State :=
  let s' := { s with cu := s.cu.closing s.newWindow }
  let causes := closeCauses s.cu s'.cu
  if causes.agreement || causes.wheelFault then s'.chooseTrust.journalState causes s.cu.agreement else s'

/-- The window closes when |dw| or |dc| is W or more (R11). -/
def State.testWindow (s : State) : State :=
  let moves := s.cu.windowMoves
  if s.cu.window.w ≤ moves.1.natAbs ∨ s.cu.window.w ≤ moves.2.natAbs then s.closeWindow else s

/-! ### Increments (R16, R19) -/

/-- The published chainage advances by mm within its limits; a change is handed to the waypoint table
with cause TRACK (R16 steps 2 and 3, R19). -/
def State.advance (mm : Int) (s : State) : State :=
  let target := s.cu.chainage + mm
  let reached := clampInt chMin chMax target
  let s' := { s with cu := { s.cu with
      chainage := reached, sat := s.cu.sat || reached ≠ target } }
  if reached ≠ s.cu.chainage then s'.crossWaypoints else s'

/-- A wheel increment, handled whole (R16). -/
def State.wheelIncrement (mm : Int) (s : State) : State :=
  let s := { s with cu := { s.cu with wheelTrack := s.cu.wheelTrack + BitVec.ofInt 32 mm } }
  let s := if s.cu.trusted = .wheel then s.advance mm else s
  s.testWindow

/-- A cable increment, handled whole (R16). -/
def State.cableIncrement (mm : Int) (s : State) : State :=
  let s := { s with cu := { s.cu with cableTrack := s.cu.cableTrack + BitVec.ofInt 32 mm } }
  let s := if s.cu.trusted = .cable then s.advance mm else s
  s.testWindow

/-! ### Wheel decoding (R2 to R4) -/

/-- The place of a pair, WA then WB, in the cycle 00, 10, 11, 01 (R2). -/
def cyclePlace (wa wb : Bool) : Nat :=
  match wa, wb with
  | false, false => 0
  | true, false => 1
  | true, true => 2
  | false, true => 3

/-- What a change of the accepted pair gives (R2). -/
inductive Decoded where
  | same
  | step (forward : Bool)
  | illegal
  deriving DecidableEq, Repr

/-- The decoding table of R2; a sample that changes neither phase is decoded as nothing. -/
def decodePair (a b wa wb : Bool) : Decoded :=
  match (cyclePlace wa wb + 4 - cyclePlace a b) % 4 with
  | 0 => .same
  | 1 => .step true
  | 3 => .step false
  | _ => .illegal

/-- A wheel step adds or subtracts the wheel scale; whole mm pass to the wheel track as one increment
(R3). -/
def State.wheelStep (forward : Bool) (s : State) : State :=
  let sum := s.cu.wheelResidual + (if forward then (s.cfg.wheelScale : Int) else -(s.cfg.wheelScale : Int))
  let mm := sum.tdiv 1000
  let s := { s with cu := { s.cu with wheelResidual := sum.tmod 1000 } }
  if mm = 0 then s else s.wheelIncrement mm

/-- An illegal transition is counted; the one that brings the count to 8 sets WHEEL_FAULT (R2, R4). -/
def State.illegalTransition (s : State) : State :=
  let count := min (s.cu.illegalCount + 1) 255
  let sets := count = 8 ∧ s.cu.illegalCount = 7 ∧ s.cu.wheelFault = false
  let s := { s with cu := { s.cu with illegalCount := count } }
  if sets then
    let s := { s with cu := { s.cu with wheelFault := true } }
    s.chooseTrust.journalState ⟨false, true, false, false⟩ s.cu.agreement
  else s

/-- The accepted pair takes new levels and is decoded against the pair before; a phase that changed
has no candidate any more (R1, R2). -/
def State.acceptPair (wa wb : Bool) (s : State) : State :=
  let decoded := decodePair s.cu.phaseA s.cu.phaseB wa wb
  let s := { s with cu := { s.cu with
      phaseA := wa, phaseB := wb
      candA := if wa = s.cu.phaseA then s.cu.candA else none
      candB := if wb = s.cu.phaseB then s.cu.candB else none } }
  match decoded with
  | .same => s
  | .step forward => s.wheelStep forward
  | .illegal => s.illegalTransition

/-! ### The reel (R5 to R9) -/

/-- CABLE_LOST sets and the silence timer stops; the window is then suspended (R8, R13). -/
def State.loseCable (s : State) : State :=
  let s := { s with cu := { s.cu with cableLost := true, silenceStart := none } }
  s.chooseTrust.journalState ⟨false, false, true, false⟩ s.cu.agreement

/-- CABLE_LOST clears and the window is reopened (R5, R13). -/
def State.findCable (s : State) : State :=
  let s := ({ s with cu := { s.cu with cableLost := false } }).reopenWindow
  s.chooseTrust.journalState ⟨false, false, true, false⟩ s.cu.agreement

/-- The report's case (R5 to R7), after the silence timer and CABLE_LOST have been dealt with. -/
def State.applyReel (count : Word32) (s : State) : State :=
  match s.cu.reelSeed with
  | none => { s with cu := { s.cu with reelSeed := some count } }
  | some last =>
    let delta := (count - last).toInt
    let s := { s with cu := { s.cu with reelSeed := some count } }
    if s.cfg.reelJumpLimit < delta.natAbs then
      s.journalState ⟨false, false, false, true⟩ s.cu.agreement
    else
      let sum := s.cu.cableResidual + delta * s.cfg.reelScale
      let mm := sum.tdiv 1000
      let s := { s with cu := { s.cu with cableResidual := sum.tmod 1000 } }
      if mm = 0 then s else s.cableIncrement mm

/-- A REEL REPORT taken: the silence timer restarts, a set CABLE_LOST clears, then the case acts
(R5). -/
def State.takeReel (count : Word32) (s : State) : State :=
  let lost := s.cu.cableLost
  let s := { s with cu := { s.cu with silenceStart := some s.now } }
  let s := if lost then s.findCable else s
  s.applyReel count

/-- The silence limit is reached: the timer runs and the measured time is at or above it (R8). -/
def State.silenceReached (s : State) : Bool :=
  match s.cu.silenceStart with
  | some start => decide (ticksOfMs s.cfg.reelSilenceLimit ≤ s.now - start)
  | none => false

/-! ### Re-reference and runs (R27 to R30, R37) -/

/-- A re-reference with value v, taken whole (R27 to R30): chainage, SAT and epoch, the history
shifted by the amount, the waypoint sides, one REREF record, then the REREF event. -/
def State.rereference (v : Int) (requester : Requester) (s : State) : State :=
  let old := s.cu.chainage
  let new := clampInt chMin chMax v
  let s := { s with cu := { s.cu with
      chainage := new
      sat := decide (new ≠ v)
      epoch := nextSkippingZero s.cu.epoch
      history := s.cu.history.map (· + (new - old)) } }
  (s.recomputeSides.journal (.reref requester old)).setEventAll .reref

/-- The close of a run: one RUN_CLOSE record with the track totals, then IDLE (R37). -/
def State.closeRun (implicit : Bool) (s : State) : State :=
  let s := s.journal (.runClose implicit (s.cu.wheelTrack - s.cu.runWheelBase)
    (s.cu.cableTrack - s.cu.runCableBase))
  { s with cu := { s.cu with runState := .idle } }

/-! ### The velocity gate (R20) -/

/-- The velocity from the chainage and the oldest history value (R20). -/
def gateVelocity (chainage oldest : Int) : Int := clampInt (-32767) 32767 ((chainage - oldest) * 5)

/-- The gate's act on the chainage unit (R20): the velocity, the history moved on by one, and
the timer, which runs continuously. -/
def State.gate (s : State) : State :=
  let c := s.cu
  { s with cu := { c with
      velocity := gateVelocity c.chainage (c.history.headD c.chainage)
      history := c.history.tail ++ [c.chainage]
      gateDue := c.gateDue + ticksOfMs 25 } }

end Sys2Proof.Machine
end

