-- ==== Sys2Proof/Machine/Claims.lean ====
section
/-! DEFINITION. The current arbiter's operations (chapter 4): free current, serving the queue, a claim,
its timeout, the lamp allowance and the hand-in of the lamp commit. -/

namespace Sys2Proof.Machine

/-- Σgranted (R59). -/
def Arbiter.granted (a : Arbiter) : Nat :=
  a.claims.surface.granted + a.claims.drive.granted + a.claims.head.granted

/-- A record's need: what it asks for above its grant (R60). -/
def Claim.need (c : Claim) : Nat := c.requested - c.granted

/-- Σneed over the PENDING records (R65). -/
def Arbiter.needs (a : Arbiter) : Nat :=
  let need (c : Claim) : Nat := match c.state with
    | .pending _ => c.need
    | .settled => 0
  need a.claims.surface + need a.claims.drive + need a.claims.head

/-- free = A − Σgranted − max(lamp commit, F) (R59). -/
def State.freeCurrent (s : State) : Int :=
  (s.cfg.tetherAllowance : Int) - s.ca.granted - max s.ca.commit s.cfg.lampFloor

def State.setClaim (p : Port) (c : Claim) (s : State) : State :=
  { s with ca := { s.ca with claims := s.ca.claims.set p c } }

/-- The head of the queue is granted its whole need (R67). -/
def State.grantClaim (p : Port) (s : State) : State :=
  let c := s.ca.claims.get p
  (s.setClaim p ⟨c.requested, c.requested, .settled⟩).setEvent p .grant

/-- Serving (R67): the head of the queue is granted while its need fits, and serving stops at the
first that does not. -/
def State.serveQueue : List Port → State → State
  | [], s => { s with ca := { s.ca with queue := [] } }
  | p :: rest, s =>
    if ((s.ca.claims.get p).need : Int) ≤ s.freeCurrent then State.serveQueue rest (s.grantClaim p)
    else { s with ca := { s.ca with queue := p :: rest } }

/-- The queue is served only while the sag state is CLEAR (R67). -/
def State.serve (s : State) : State := if s.ca.sag.isSome then s else State.serveQueue s.ca.queue s

/-- A record leaves the queue from any position (R61). -/
def State.leaveQueue (p : Port) (s : State) : State :=
  { s with ca := { s.ca with queue := s.ca.queue.filter (· ≠ p) } }

/-- CLAIM of x mA by a port, in the first matching case of the table of 4.3 (R62 to R64). -/
def State.takeClaim (p : Port) (x : Nat) (s : State) : State × Status :=
  let c := s.ca.claims.get p
  if s.cfg.tetherAllowance < x + s.cfg.lampFloor then (s, .range)
  else if x ≤ c.granted then (((s.setClaim p ⟨x, x, .settled⟩).leaveQueue p).serve, .ok)
  else if s.ca.sag = none ∧ s.ca.queue = [] ∧ ((x - c.granted : Nat) : Int) ≤ s.freeCurrent then
    (s.setClaim p ⟨x, x, .settled⟩, .ok)
  else
    let due := s.now + ticksOfMs s.cfg.claimTimeout
    let s' := s.setClaim p ⟨c.granted, x, .pending due⟩
    match c.state with
    | .pending _ => (s', .pending)
    | .settled => ({ s' with ca := { s'.ca with queue := s'.ca.queue ++ [p] } }, .pending)

/-- A PENDING record's timer expires: it settles at its old grant (R68). -/
def State.expireClaim (p : Port) (s : State) : State :=
  let c := s.ca.claims.get p
  ((s.setClaim p ⟨c.granted, c.granted, .settled⟩).leaveQueue p).setEvent p .expired

/-- The lamp allowance: what grants and waiting needs leave, at least F (R65). -/
def State.lampAllowance (s : State) : Nat :=
  max s.cfg.lampFloor (s.cfg.tetherAllowance - (s.ca.granted + s.ca.needs))

/-- The hand-in of the lamp commit and the serving after it (R66). -/
def State.handInCommit (commit : Nat) (s : State) : State :=
  if s.ca.sag.isSome then { s with ca := { s.ca with commit := 0 } }
  else ({ s with ca := { s.ca with commit := commit } }).serve

/-- RESTART: every record SETTLED at 0, the queue emptied, no EXPIRED (R75). -/
def State.clearClaims (s : State) : State :=
  { s with ca := { s.ca with claims := .all ⟨0, 0, .settled⟩, queue := [] } }

/-- Whether the grants in force and the larger of the counted commit and F fit in A (R70). -/
def budgetFits (a f granted commit : Nat) : Bool := decide (granted + max commit f ≤ a)

end Sys2Proof.Machine
end

