-- ==== Sys2Proof/Machine/Exposure.lean ====
section
/-! DEFINITION. The exposure allocation (5.5, R87 to R96): exact arithmetic with the rounding that
each step states. -/

namespace Sys2Proof.Machine

/-- What an allocation runs on (R87): the settings latched at its boundary, and the runtime inputs. -/
structure Allocation where
  cfg : Settings
  mode : LampMode
  report : Option (Nat × Nat)
  carried : Nat
  velocity : Int
  allowance : Nat
  weights : Four Nat
  channelMax : Nat
  dwell : Bool
  still : Bool
  deriving DecidableEq, Repr

/-- What it produces (R87). -/
structure Allocated where
  t : Nat
  d : Nat
  levels : Four Nat
  g : Nat
  pd : Nat
  commit : Nat
  statsLate : Bool
  overlit : Bool
  underlit : Bool
  deriving DecidableEq, Repr

/-- The least exposure, 20 µs (R78). -/
def tMin : Nat := 20

/-- The readout guard, 2,000 µs (R78). -/
def readoutGuard : Nat := 2000

/-- The strobe lead, 20 µs (R78). -/
def strobeLead : Nat := 20

/-- The nominal lamp level of OFF mode (R96). -/
def nominalLevel : Nat := 1000


/-- Step 1: P before its second clamp (R88). -/
def Allocation.rawTarget (a : Allocation) : Nat :=
  match a.report with
  | some (m, pm) => clampNat (pm / 2) (2 * pm) (pm * a.cfg.lumaTarget / max m 1)
  | none => a.carried

/-- The least product the part can give (R88). -/
def Allocation.leastProduct (a : Allocation) : Nat := a.cfg.dMin * tMin

/-- The largest product the part can give (R88). -/
def Allocation.largestProduct (a : Allocation) : Nat := a.cfg.dMax * a.cfg.userExposure * a.cfg.gMax / 256

/-- P (R88). -/
def Allocation.target (a : Allocation) : Nat := clampNat a.leastProduct a.largestProduct a.rawTarget

/-- Step 2: t_cap (R89). -/
def Allocation.exposureCap (a : Allocation) : Nat :=
  let limit := min a.cfg.userExposure (a.cfg.framePeriod - readoutGuard)
  max tMin (if a.velocity = 0 then limit else min limit (a.cfg.blurLimit * 1000 / a.velocity.natAbs))

/-- Step 3: D_cap (R90). -/
def Allocation.lampCap (a : Allocation) : Nat :=
  let cap := match a.mode with
    | .strobe => a.allowance * a.cfg.framePeriod / (a.exposureCap + strobeLead)
    | _ => a.allowance
  let cap := min cap a.cfg.dMax
  if a.dwell && !a.still then min cap a.cfg.dwellLevel else cap

/-- The level whose product at t_cap is too much for the target: D_min, or the nominal level in OFF
mode (R91, R96). -/
def Allocation.leastLevel (a : Allocation) : Nat :=
  match a.mode with
  | .off => nominalLevel
  | _ => a.cfg.dMin

/-- Step 4's test (R91, R96). -/
def Allocation.tooBright (a : Allocation) : Bool := decide (a.target < a.leastLevel * a.exposureCap)

/-- t of steps 4 and 5 (R91, R92, R96). -/
def Allocation.exposure (a : Allocation) : Nat :=
  if a.tooBright then max tMin (a.target / a.leastLevel) else a.exposureCap

/-- D of steps 4 and 5, before distribution (R91, R92). -/
def Allocation.level (a : Allocation) : Nat :=
  if a.tooBright then min a.cfg.dMin a.lampCap
  else min (max (ceilDiv a.target a.exposure) a.cfg.dMin) a.lampCap

/-- Step 6: the channel levels; in OFF mode there is no distribution (R93, R96). -/
def Allocation.levels (a : Allocation) : Four Nat :=
  match a.mode with
  | .off => .all 0
  | _ => distribute a.level a.weights a.channelMax

/-- The delivered D that the record carries: the sum of the levels, 0 in OFF mode (R93, R96). -/
def Allocation.delivered (a : Allocation) : Nat := a.levels.sum

/-- The level on which gain and product are formed: the delivered D, or the nominal level (R96). -/
def Allocation.lightLevel (a : Allocation) : Nat :=
  match a.mode with
  | .off => nominalLevel
  | _ => a.delivered

/-- Step 7: the gain and whether it falls short of P (R94). -/
def Allocation.gain (a : Allocation) : Nat × Bool :=
  let d := a.lightLevel
  let light := d * a.exposure
  if d = 0 then (a.cfg.gMax, true)
  else if a.tooBright = true ∧ d = a.leastLevel then (256, false)
  else if a.target ≤ light then (256, false)
  else
    let g := min a.cfg.gMax (ceilDiv (a.target * 256) light)
    (g, g = a.cfg.gMax && decide (light * a.cfg.gMax / 256 < a.target))

/-- Step 8: Pd (R95). -/
def Allocation.product (a : Allocation) : Nat := a.lightLevel * a.exposure * a.gain.1 / 256

/-- Step 9: the lamp commit (R95, R96). -/
def Allocation.lampCommit (a : Allocation) : Nat :=
  match a.mode with
  | .strobe => ceilDiv (a.delivered * (a.exposure + strobeLead)) a.cfg.framePeriod
  | .steady => a.delivered
  | .off => 0

/-- The whole allocation (R87). -/
def Allocation.run (a : Allocation) : Allocated where
  t := a.exposure
  d := a.delivered
  levels := a.levels
  g := a.gain.1
  pd := a.product
  commit := a.lampCommit
  statsLate := a.report.isNone
  overlit := decide (a.rawTarget < a.leastProduct)
  underlit := decide (a.largestProduct < a.rawTarget) || a.gain.2

end Sys2Proof.Machine
end

