-- ==== Sys2Proof/Machine/Formats.lean ====
section
/-! DEFINITION. Byte layouts of what the part sends (ch. 12): the CRC, frames and answers, journal
records, the stamp block, the gain word and the waypoint entry. Bits that a table does not assign
are sent as 0 (R186). -/

namespace Sys2Proof.Machine

/-! ### CRC-16 and frames (12.1, R187) -/

/-- One shift of the CRC register. -/
def crcShift (r : Half) : Half := if r.msb then (r <<< 1) ^^^ 0x1021 else r <<< 1

/-- n shifts. -/
def crcShifts : Nat → Half → Half
  | 0, r => r
  | n + 1, r => crcShifts n (crcShift r)

/-- One byte: combined with the register's high byte, then eight shifts. -/
def crcByte (r : Half) (b : Byte) : Half := crcShifts 8 (r ^^^ (b ++ (0 : Byte)))

/-- The CRC of a sequence of bytes, from FFFFH. -/
def crc16 (bs : List Byte) : Half := bs.foldl crcByte 0xFFFF

/-- A frame: sync, length, payload, CRC over length and payload, low byte first. -/
def frameBytes (payload : List Byte) : List Byte :=
  let counted := BitVec.ofNat 8 payload.length :: payload
  0xA5 :: counted ++ le16 (crc16 counted)

/-- The payload of an answer: echoed code, status, summary byte, data. -/
def Answer.payload (a : Answer) : List Byte := a.code :: a.status.code :: a.summary :: a.data

def Answer.bytes (a : Answer) : List Byte := frameBytes a.payload

/-! ### Journal records (12.4) -/

/-- The text completed with zeros to a word boundary. -/
def padToWord (text : List Byte) : List Byte :=
  text ++ List.replicate (4 * textWords text.length - text.length) 0

def Body.kindCode : Body → Nat
  | .runOpen .. => 0x01
  | .runClose .. => 0x02
  | .reref .. => 0x03
  | .state .. => 0x04
  | .mark .. => 0x05
  | .still .. => 0x06
  | .frame .. => 0x07
  | .halt .. => 0x08
  | .sag .. => 0x09
  | .lost .. => 0x0A
  | .restart => 0x0B
  | .note .. => 0x0C

/-- The attitude part: incline s16, roll u16. -/
def attitudeBytes : Option Attitude → List Byte
  | some a => s16 a.incline ++ u16 a.roll
  | none => []

/-- The pose part: pan u16, tilt s16, zoom step u8. -/
def poseBytes : Option Pose → List Byte
  | some p => u16 p.pan ++ s16 p.tilt ++ u8 p.zoom
  | none => []

/-- The pose part of a record: completed to two words. -/
def poseWords : Option Pose → List Byte
  | some p => poseBytes (some p) ++ [0, 0, 0]
  | none => []

/-- A code in the low half of a word. -/
def codeWord : Option Half → List Byte
  | some c => le16 c ++ [0, 0]
  | none => []

/-- The body of a STILL or FRAME record. -/
def frameBodyBytes (source : Nat) (code : Option Half) (f : FrameBody) : List Byte :=
  u8 (packBits [code.isSome, f.attitude.isSome, f.pose.isSome]) ++ u8 source ++ [0, 0] ++
  le32 f.number ++ u32 f.t ++ u16 f.d ++ u16 f.g ++ u16 f.flags.bits ++ [0, 0] ++
  codeWord code ++ attitudeBytes f.attitude ++ poseWords f.pose

/-- The body from offset 20 (12.4). -/
def Body.bytes : Body → List Byte
  | .runOpen direction label =>
    u8 (packBits [!label.isEmpty]) ++ u8 direction.code ++ u8 label.length ++ [0] ++ padToWord label
  | .runClose implicit wheelTotal cableTotal =>
    [0] ++ u8 implicit.toNat ++ [0, 0] ++ le32 wheelTotal ++ le32 cableTotal
  | .reref requester old => [0] ++ u8 requester.code ++ [0, 0] ++ s32 old
  | .state causes before after wheelFault cableLost =>
    [0] ++ u8 causes.bits ++ u8 (before.code + 4 * after.code) ++ u8 (packBits [wheelFault, cableLost])
  | .mark cause haltBusy stillDropped n code =>
    u8 (packBits [code.isSome]) ++ u8 cause.code ++ u8 (packBits [haltBusy, stillDropped]) ++ [0] ++
    u32 n ++ codeWord code
  | .still source code f => frameBodyBytes source.code code f
  | .frame f => frameBodyBytes 0 none f
  | .halt phase kind origin requester =>
    u8 (packBits [requester.isSome]) ++ u8 (phase.code + 16 * kind.code) ++ u8 origin.code ++
    u8 origin.ownerCode ++
    (match requester with
      | some r => u8 r.code ++ [0, 0, 0]
      | none => [])
  | .sag duration =>
    u8 (packBits [duration.isSome]) ++ u8 (packBits [duration.isSome]) ++ [0, 0] ++
    (match duration with
      | some d => le32 d
      | none => [])
  | .lost count firstDrop => [0, 0, 0, 0] ++ u32 count ++ le32 firstDrop
  | .restart => []
  | .note text => u8 (packBits [!text.isEmpty]) ++ u8 text.length ++ [0, 0] ++ padToWord text

/-- A record whole: the 20 bytes of its header, then its body. -/
def Record.bytes (r : Record) : List Byte :=
  u32 r.seq ++ u8 r.body.kindCode ++ u8 r.body.words ++ le16 r.header.runNumber ++
  le32 r.header.runClock ++ s32 r.header.chainage ++ le16 r.header.epoch ++ u16 r.header.flags ++
  r.body.bytes

/-! ### The stamp block (12.3, R140, R188) -/

/-- The still part: a source byte whose bit 7 marks a code, then the code. -/
def stillPartBytes : Option StillEntry → List Byte
  | some e =>
    u8 (e.source.code + 128 * e.code.isSome.toNat) ++
    (match e.code with
      | some c => le16 c
      | none => [])
  | none => []

/-- The parts of a frame's stamp block, from its capture and its allocation (R140). -/
def FrameRecord.stampParts (f : FrameRecord) (c : Capture) : List Byte :=
  le32 f.number ++ le16 c.published.runNumber ++ le32 c.published.runClock ++
  s32 c.published.chainage ++ le16 c.published.epoch ++ u8 c.published.flags ++
  s16 c.published.velocity ++ u32 f.t ++ u16 f.d ++ u16 f.g ++ u16 f.flags.bits ++
  u8 (packBits [f.still.isSome, c.attitude.isSome, c.pose.isSome]) ++
  stillPartBytes f.still ++ attitudeBytes c.attitude ++ poseBytes c.pose

/-- The block: start byte, length, parts, CRC over length and parts. -/
def FrameRecord.stampBlock (f : FrameRecord) (c : Capture) : List Byte :=
  let counted := BitVec.ofNat 8 (f.stampParts c).length :: f.stampParts c
  0xC3 :: counted ++ le16 (crc16 counted)

/-! ### The line forms of OVL, STXD and DMISO (R141, R164, R167) -/

/-- A byte on OVL or STXD: one start bit, low, eight data bits least significant first, one stop bit, high.
For STXD R164 gives eight data bits, no parity and one stop bit; that the start bit is low and the least
significant bit comes first is the form common to every UART (PRESUMED, log 33). -/
def serialBits (b : Byte) : List Bool := false :: (List.finRange 8).map (fun i => b.getLsb i) ++ [true]

/-- Level of such a line so many bit times after the start of a run of bytes: they follow one another
without gaps, and the line rests high after the last (R141, R164). -/
def serialLevel (bytes : List Byte) (bitTimes : Nat) : Bool :=
  ((bytes.flatMap serialBits)[bitTimes]?).getD true

/-- The OVL pin: the block begun last, one bit of 0.5 µs a tick, and high between blocks and during RESET
(R141, R182). -/
def State.ovl (s : State) : Bool := s.resetLine || serialLevel s.sp.ovlBlock (s.now - s.sp.ovlStart)

/-- A byte as it goes over DMOSI or DMISO, most significant bit first (R167). -/
def spiBits (b : Byte) : List Bool := (List.finRange 8).map fun i => b.getMsb i

/-- The byte that eight such bits make. -/
def spiByte (bits : List Bool) : Byte := BitVec.ofNat 8 (packBits bits.reverse)

/-! ### The gain word (12.5, R189) -/

/-- Bits 0 to 15 hold G in Q8, bits 16 to 23 the frame tag. -/
def GainWord.bits (g : GainWord) : BitVec 24 := g.tag ++ BitVec.ofNat 16 g.gain

/-- The word on GWD, one bit per rising edge of GWCK, least significant bit first. -/
def GainWord.gwck (g : GainWord) : List SensorPulse := (List.finRange 24).map fun i => .gwck (g.bits.getLsb i)

/-- A gain word goes out whole, and FSTART is pulsed after it (R83, R189). -/
def State.sendGain (g : GainWord) (s : State) : State :=
  { s with sp := { s.sp with
      gainWord := some g, pulses := g.gwck ++ [.fstart], fstartPulses := s.sp.fstartPulses + 1 } }

/-! ### Waypoint entries (12.2) -/

/-- The marked fields of an entry: preset u8, code u16, interval u32, remaining u16. -/
def Waypoint.fieldBytes (e : Waypoint) : List Byte :=
  (match e.action with
    | .preset k => u8 k.val
    | _ => []) ++
  (match e.code with
    | some c => le16 c
    | none => []) ++
  (match e.interval with
    | some i => u32 i
    | none => []) ++
  (match e.remaining with
    | some r => u16 r
    | none => [])

/-- Presence mask: bit 0 preset, 1 code, 2 interval, 3 remaining. -/
def Waypoint.mask (e : Waypoint) : Nat :=
  packBits [match e.action with
      | .preset _ => true
      | _ => false,
    e.code.isSome, e.interval.isSome, e.remaining.isSome]

def Waypoint.bytes (e : Waypoint) : List Byte :=
  u8 (Port.code e.owner) ++ u8 e.mask ++ s32 e.point ++ u8 e.sense.code ++ u8 e.action.code ++ e.fieldBytes

/-- The answer data of WAYPOINT READ: a FREE slot is its state byte alone; the side follows the
marked fields of an ARMED entry only. -/
def Slot.bytes : Slot → List Byte
  | .free => u8 0
  | .armed e side => u8 1 ++ e.bytes ++ u8 side.code
  | .spent e => u8 2 ++ e.bytes

/-- Four weights as four bytes, channel 0 first. -/
def weightBytes (w : Four Nat) : List Byte := w.toList.map (BitVec.ofNat 8)

end Sys2Proof.Machine
end

