-- ==== Sys2Proof/Machine/Frames.lean ====
section
/-! DEFINITION. The frame sequencer's operations (chapters 5 and 8): the boundary, the strobe window,
the capture, the exposure end, luma reports, and sag as the frames and the lamps feel it. -/

namespace Sys2Proof.Machine

/-! ### The ring (R85, R86) -/

/-- The frame tag: the low 8 bits of a frame number (R77). -/
def frameTag (number : Word32) : Byte := number.extractLsb' 0 8

/-- The records later than the report mark, in ring order (R86). -/
def afterMark (mark : Option Word32) (ring : List FrameRecord) : List FrameRecord :=
  match mark with
  | none => ring
  | some m => if ring.any (·.number = m) then (ring.dropWhile (·.number ≠ m)).tail else ring

/-- The usable report: the newest later record with a luma and without SHED (R86). -/
def usableReport (mark : Option Word32) (ring : List FrameRecord) : Option FrameRecord :=
  (afterMark mark ring).reverse.find? fun f => f.luma.isSome && !f.flags.shed

/-- A record joins as the newest; the oldest leaves when the ring already holds four (R85). -/
def joinRing (f : FrameRecord) (ring : List FrameRecord) : List FrameRecord :=
  (if 4 ≤ ring.length then ring.tail else ring) ++ [f]

/-- The current frame, while one is in progress (R78). -/
def FrameSequencer.current (f : FrameSequencer) : Option FrameRecord :=
  if f.phase = .none then none else f.ring.getLast?

/-- A change of the current frame's record. -/
def State.updateFrame (change : FrameRecord → FrameRecord) (s : State) : State :=
  match s.fs.current with
  | some f => { s with fs := { s.fs with ring := s.fs.ring.dropLast ++ [change f] } }
  | none => s

/-! ### The strobe window (R78, R80, R98, R111) -/

/-- The current frame is flagged SHED (R97). -/
def State.shed (s : State) : State :=
  s.updateFrame fun f => { f with flags := { f.flags with shed := true } }

/-- The strobe window opens; a sag hold in force then sheds the frame (R98). -/
def State.openWindow (s : State) : State :=
  let s := { s with fs := { s.fs with windowOpen := true } }
  if s.ld.hold then s.shed else s

/-- Strobe on: in STROBE mode the window opens and each channel is lit at its pending level unless a
sag hold keeps it dark; in the other modes nothing changes (R80, R111, R116). -/
def State.strobe (s : State) : State :=
  if s.ld.mode = .strobe then
    let s := s.openWindow
    if s.ld.hold then s else { s with ld := s.ld.light }
  else s

/-- Exposure start: the phase becomes EXPOSE, and in STEADY mode the window opens (R78, R80). -/
def State.expose (s : State) : State :=
  let s := { s with fs := { s.fs with phase := .expose } }
  if s.ld.mode = .steady then s.openWindow else s

/-! ### The boundary (R79) -/

/-- Step 1: the written lamp mode and frame period are latched and the timer restarts at its expiry
(R77, R104). -/
def State.latchFrame (s : State) : State :=
  { s with
    fs := { s.fs with
      frameStart := s.fs.frameDue
      frameDue := s.fs.frameDue + ticksOfUs s.cfg.framePeriod
      period := s.cfg.framePeriod
      windowOpen := false }
    ld := { s.ld with mode := s.ld.writtenMode } }

/-- Step 4: the head of the still queue leaves, and a halt still is reported (R123, R128). -/
def State.takeStill (s : State) : State :=
  match s.sq with
  | [] => s
  | e :: rest =>
    let s := { s with sq := rest }
    if e.source = .halt then s.haltStillTaken else s

/-- Step 5, on the lamp driver: the pending weights are adopted and the channel maximum latched (R108,
R110). -/
def State.adoptWeights (s : State) : State :=
  { s with ld := { s.ld with weights := s.ld.pendingWeights, channelMax := s.cfg.channelMax } }

/-- The inputs of step 6 (R79, R87). -/
def State.allocation (report : Option FrameRecord) (still : Bool) (s : State) : Allocation where
  cfg := s.cfg
  mode := s.ld.mode
  report := report.bind fun f => f.luma.map fun m => (m, f.pd)
  carried := s.fs.carried
  velocity := s.cu.velocity
  allowance := s.lampAllowance
  weights := s.ld.weights
  channelMax := s.ld.channelMax
  dwell := s.ld.dwell
  still := still

/-- The record of the starting frame (R85, R97). -/
def newRecord (number : Word32) (entry : Option StillEntry) (dwell : Bool) (a : Allocated) :
    FrameRecord where
  number := number
  t := a.t
  d := a.d
  levels := a.levels
  g := a.g
  pd := a.pd
  still := entry
  flags :=
    { still := entry.isSome, underlit := a.underlit, overlit := a.overlit, shed := false, held := false
      sat := false, moving := false, statsLate := a.statsLate, dwell := dwell }
  capture := none
  luma := none

/-- Step 7: the gain word and FSTART, and the levels to the lamp driver; a sag hold ends here when
the sag state is CLEAR (R83, R105, R116). -/
def State.driveFrame (previous : LampMode) (number : Word32) (a : Allocated) (s : State) : State :=
  let held := s.ld.hold && s.ca.sag.isSome
  let ended := s.ld.hold && s.ca.sag.isNone
  let s := s.sendGain ⟨a.g, frameTag number⟩
  { s with ld := ({ s.ld with hold := held }).takeLevels s.fs.frameStart previous held ended a.levels }

/-- The phase of the starting frame: PRE, or EXPOSE at once; strobe on and exposure start that fall
at the boundary itself belong to it (R78, R79, R111; log 13). -/
def State.startPhase (t : Nat) (s : State) : State :=
  let s := { s with fs := { s.fs with phase := .pre } }
  let s := if s.fs.period ≤ t + readoutGuard + strobeLead then s.strobe else s
  if s.fs.period ≤ t + readoutGuard then s.expose else s

/-- The lamp mode of the frame before, taken as OFF after power-on and RESTART (R105). -/
def State.previousMode (s : State) : LampMode := if s.fs.phase = .none then .off else s.ld.mode

/-- Step 3: the report that the starting frame is allocated from (R86). -/
def State.frameReport (s : State) : Option FrameRecord := usableReport s.fs.reportMark s.fs.ring

/-- The boundary up to the allocation: what is latched, taken and adopted (steps 1, 4 and 5). -/
def State.frameReady (s : State) : State := s.latchFrame.takeStill.adoptWeights

/-- Step 6: the allocation of the starting frame (R87), a still when an entry waits at the head. -/
def State.frameAllocated (s : State) : Allocated :=
  (s.frameReady.allocation s.frameReport s.sq.head?.isSome).run

/-- The starting frame's record joins the ring under its new number, its report is marked and its
product carried; a still taken ends DWELL after the allocation has read it (R77, R85, R86, R95, R114). -/
def State.frameBegun (s : State) : State :=
  let number := s.fs.frameNumber + 1
  let s' := s.frameReady
  let s' := { s' with fs := { s'.fs with
      frameNumber := number
      ring := joinRing (newRecord number s.sq.head? s'.ld.dwell s.frameAllocated) s.fs.ring
      reportMark := match s.frameReport with
        | some f => some f.number
        | none => s.fs.reportMark
      carried := s.frameAllocated.pd } }
  if s.sq.head?.isSome then s'.dwellAtStill else s'

/-- The boundary's act (R79), all eight steps, then the starting phase. -/
def State.boundary (s : State) : State :=
  let a := s.frameAllocated
  ((s.frameBegun.driveFrame s.previousMode (s.fs.frameNumber + 1) a).handInCommit a.commit).startPhase a.t

/-! ### Times of the current frame (R78) -/

/-- The boundary's time plus so many µs. -/
def FrameSequencer.at (f : FrameSequencer) (us : Nat) : Nat := f.frameStart + ticksOfUs us

/-- Exposure time of the current frame. -/
def FrameSequencer.exposure (f : FrameSequencer) : Nat :=
  match f.current with
  | some r => r.t
  | none => 0

/-- Strobe on: Tf − 2,000 − t − 20, or the boundary. -/
def FrameSequencer.strobeAt (f : FrameSequencer) : Nat :=
  f.at (f.period - readoutGuard - f.exposure - strobeLead)

/-- Exposure start: Tf − 2,000 − t. -/
def FrameSequencer.exposeAt (f : FrameSequencer) : Nat := f.at (f.period - readoutGuard - f.exposure)

/-- Midpoint: exposure start + floor(t / 2). -/
def FrameSequencer.midpointAt (f : FrameSequencer) : Nat :=
  f.at (f.period - readoutGuard - f.exposure + f.exposure / 2)

/-- Exposure end: Tf − 2,000. -/
def FrameSequencer.endAt (f : FrameSequencer) : Nat := f.at (f.period - readoutGuard)

/-! ### Midpoint and exposure end (R81, R82) -/

/-- The capture taken now (R139). -/
def State.captureNow (s : State) : Capture where
  published := s.cu.published
  attitude := s.fs.attitude.map Fresh.value
  pose := s.fs.pose.map Fresh.value

/-- The current frame's record takes the capture and the flags made from it (R81, R97). -/
def FrameRecord.withCapture (c : Capture) (f : FrameRecord) : FrameRecord :=
  { f with
    capture := some c
    flags := { f.flags with
      held := c.published.held
      sat := c.published.sat
      moving := match f.still with
        | some e => c.published.velocity ≠ 0 || e.moving
        | none => false } }

/-- The body of a frame's STILL or FRAME record (R99). -/
def FrameRecord.body (f : FrameRecord) (c : Capture) : FrameBody where
  number := f.number
  t := f.t
  d := f.d
  g := f.g
  flags := f.flags
  attitude := c.attitude
  pose := c.pose

/-- At most one record for the frame: STILL, or FRAME at multiples of the interval (R99). -/
def FrameRecord.journalBody (f : FrameRecord) (c : Capture) (interval : Nat) : Option Body :=
  match f.still with
  | some e => some (.still e.source e.code (f.body c))
  | none => if interval ≠ 0 ∧ f.number.toNat % interval = 0 then some (.frame (f.body c)) else none

/-- The stamp block goes out and the frame's record is handed to the journal, its header filled from
the capture (R82, R99, R142); a frame without a capture sends and journals nothing (log 12). -/
def State.emitFrame (f : FrameRecord) (s : State) : State :=
  match f.capture with
  | none => s
  | some c =>
    let s := { s with sp := { s.sp with ovlBlock := f.stampBlock c, ovlStart := s.now } }
    match f.journalBody c s.cfg.journalInterval with
    | some b => (s.handRecord (c.published.header true) b).1
    | none => s

/-- The exposure end of the frame f (R82). -/
def State.endExposure (f : FrameRecord) (s : State) : State :=
  let s := { s with fs := { s.fs with phase := .guard, windowOpen := false } }
  let s := if s.ld.mode = .strobe then { s with ld := s.ld.cut } else s
  let s := s.emitFrame f
  match f.still with
  | some e => if e.source = .halt then s.haltStillExposed else s
  | none => s

/-! ### Luma reports (R84) -/

/-- Whether a record takes a luma with this tag: the tag matches, it holds none, and it is not the
current frame before its exposure end (R84). -/
def FrameSequencer.takesLuma (fs : FrameSequencer) (tag : Byte) (f : FrameRecord) : Bool :=
  frameTag f.number = tag && f.luma.isNone &&
    !(f.number = fs.frameNumber && (fs.phase = .pre || fs.phase = .expose))

/-- A record meets a complete luma report; a value above 1,023 is clamped (R84). -/
def FrameSequencer.lumaInto (fs : FrameSequencer) (tag : Byte) (luma : Nat) (f : FrameRecord) :
    FrameRecord :=
  if fs.takesLuma tag f then { f with luma := some (min luma 1023) } else f

/-- A complete luma report acts on the ring alone (R84). -/
def State.reportLuma (tag : Byte) (luma : Nat) (s : State) : State :=
  { s with fs := { s.fs with ring := s.fs.ring.map (s.fs.lumaInto tag luma) } }

/-! ### RESTART (R102) -/

/-- The carried product's initial value, (D_max / 4) × (tu / 2) (R101). -/
def initialProduct (cfg : Settings) : Nat := cfg.dMax / 4 * (cfg.userExposure / 2)

/-- The current frame is abandoned, the ring emptied, the mark absent, the product initial (R102). -/
def State.abandonFrame (s : State) : State :=
  { s with fs := { s.fs with
      phase := .none, windowOpen := false, ring := [], reportMark := none
      carried := initialProduct s.cfg } }

/-! ### Sag (R73, R74, R98, R116) -/

/-- The duration field for a sag of so many ms; what the manual leaves open beyond 32 bits is a free
value (log 9). -/
def sagDuration (ms : Nat) : Word32 :=
  if ms < 4294967296 then BitVec.ofNat 32 ms else Config.freeSagDuration ms

/-- A sag assertion (R73): the counted commit becomes 0, every lamp goes off and a hold begins, an
open strobe window is shed, and SAG START is journaled with its event. -/
def State.assertSag (s : State) : State :=
  let s := { s with
    ca := { s.ca with sag := some s.now, commit := 0, tsagCand := none }
    ld := { s.ld.cut with hold := true } }
  let s := if s.fs.windowOpen then s.shed else s
  (s.journal (.sag none)).setEventAll .sag

/-- A sag release (R74): SAG END with the duration, the event, then serving. -/
def State.releaseSag (start : Nat) (s : State) : State :=
  let s := { s with ca := { s.ca with sag := none, tsagCand := none } }
  ((s.journal (.sag (some (sagDuration (msOfTicks (s.now - start)))))).setEventAll .sag).serve

end Sys2Proof.Machine
end

