-- ==== Sys2Proof/Machine/Requests.lean ====
section
/-! DEFINITION. How a request is taken and answered (chapter 10): the checks of R169 in their order,
the rights of R171, the surface output queue, the answer slots of the drive and head ports, and what
a master reads. -/

namespace Sys2Proof.Machine

/-- What a request's rule answers: a status and the answer data. -/
structure Reply where
  status : Status
  data : List Byte
  deriving DecidableEq, Repr

/-- A refusal, or an outcome, without data. -/
def bare (status : Status) : Reply := ⟨status, []⟩

/-! ### Rights (R171) -/

def anyPort (_ : Port) : Bool := true

def surfaceOnly (p : Port) : Bool := p = .surface

def driveOnly (p : Port) : Bool := p = .drive

def headOnly (p : Port) : Bool := p = .head

def surfaceOrHead (p : Port) : Bool := p ≠ .drive

/-! ### The checks (R169) -/

/-- Steps 2 to 4 of R169: rights, then length, then the request's own rule. -/
def checkRequest (rights : Port → Bool) (parse : List Byte → Option α)
    (act : Port → α → State → State × Reply) (p : Port) (args : List Byte) (s : State) : State × Reply :=
  if rights p then
    match parse args with
    | some a => act p a s
    | none => (s, bare .length)
  else (s, bare .rights)

/-! ### Answers (R170) -/

/-- The answer formed now: the summary byte shows the events that the request itself has set. -/
def State.formAnswer (p : Port) (code : Byte) (r : Reply) (s : State) : Answer :=
  ⟨code, r.status, s.summary p, r.data⟩

/-- The output queue holds at most four answers (R164). -/
def outputPlaces : Nat := 4

/-- An answer joins the output queue; it begins at once when nothing is being sent (R164). -/
def State.queueAnswer (a : Answer) (s : State) : State :=
  { s with pi := { s.pi with
      outQueue := s.pi.outQueue ++ [a]
      sendStart := if s.pi.outQueue.isEmpty then s.now else s.pi.sendStart } }

def PortInterface.slot (x : PortInterface) : BusPort → AnswerSlot
  | .drive => x.driveSlot
  | .head => x.headSlot

def State.putSlot (b : BusPort) (x : AnswerSlot) (s : State) : State :=
  match b with
  | .drive => { s with pi := { s.pi with driveSlot := x } }
  | .head => { s with pi := { s.pi with headSlot := x } }

def State.setReceiver (p : Port) (r : Receiver) (s : State) : State :=
  { s with pi := { s.pi with receivers := s.pi.receivers.set p r } }

/-- The request code of REEL REPORT, which alone has no answer on the surface port (R170). -/
def reelReportCode : Byte := 0x14

/-- A valid surface frame (R164, R165): the receiver is in HUNT, the link is heard first; with four
answers waiting the frame is discarded, but for a REEL REPORT, which is taken and never answered. The
answer and its summary byte are formed in the act of the taking, where R170 and R175 leave the moment
open on the surface port (DESIGN CHOICE, log 27). -/
def State.takeSurface (code : Byte) (body : State → State × Reply) (s : State) : State :=
  let s := (s.setReceiver .surface .hunt).hearSurface
  if code = reelReportCode then (body s).1
  else if outputPlaces ≤ s.pi.outQueue.length then s
  else
    let (s', r) := body s
    s'.queueAnswer (s'.formAnswer .surface code r)

/-- A request of the drive or head port is taken (R166): the one in flight, or one that the slot
would accept (log 7); its answer is formed in the same act and held. While another request is in
flight the frame is discarded. -/
def State.takeBus (b : BusPort) (code : Byte) (args : List Byte) (body : State → State × Reply)
    (s : State) : State :=
  let taken : State :=
    let (s', r) := body s
    s'.putSlot b (.held (s'.formAnswer b.port code r))
  match s.pi.slot b with
  | .working c a _ => if c = code ∧ a = args then taken else s
  | _ => taken

/-- A valid frame with this code on a port, whose checks and effect are `body`. -/
def State.deliver (code : Byte) (p : Port) (args : List Byte) (body : State → State × Reply)
    (s : State) : State :=
  match p with
  | .surface => s.takeSurface code body
  | .drive => s.takeBus .drive code args body
  | .head => s.takeBus .head code args body

/-- A request of the table of 12.1, taken whole; nothing is received during RESET (R182). -/
def State.request (code : Byte) (rights : Port → Bool) (parse : List Byte → Option α)
    (act : Port → α → State → State × Reply) (p : Port) (args : List Byte) (s : State) : State :=
  s.whenRunning fun s => s.deliver code p args (checkRequest rights parse act p args)

/-! ### What a master reads (R166 to R168) -/

/-- The NOT_READY answer, with the summary byte as it stands when it is sent (R166). -/
def State.notReady (p : Port) (code : Byte) (s : State) : Answer := ⟨code, .notReady, s.summary p, []⟩

/-- What a read of the slot gives (R166); it changes nothing. -/
def State.slotRead (b : BusPort) (s : State) : Answer :=
  match s.pi.slot b with
  | .empty => s.notReady b.port 0x00
  | .working code _ _ => s.notReady b.port code
  | .held a => a

/-- The surface answer being sent on STXD, which rests high during RESET (R164, R182). -/
def State.sending (s : State) : Option Answer := if s.resetLine then none else s.pi.outQueue.head?

/-- Bits a second on SRXD and STXD, by the SBAUD strap (R164). -/
def baudRate (fastBaud : Bool) : Nat := if fastBaud then 460800 else 115200

/-- Ticks that a surface answer takes: 10 bits a byte, rounded up to a tick (R164, log 18). -/
def sendTicks (fastBaud : Bool) (a : Answer) : Nat :=
  ceilDiv (a.bytes.length * 10 * 2000000) (baudRate fastBaud)

/-- The STXD pin: the bit of the answer being sent that is in course at this tick, and high between answers
and during RESET (R164, R182). -/
def State.stxd (s : State) : Bool :=
  match s.sending with
  | some a => serialLevel a.bytes ((s.now - s.pi.sendStart) * baudRate s.pi.fastBaud / 2000000)
  | none => true

end Sys2Proof.Machine
end

