-- ==== Sys2Proof/Machine/Survey.lean ====
section
/-! DEFINITION. Position commands (chapters 1 and 2): re-references, runs, the reel, the wheel, the
velocity gate and the run clock. -/

namespace Sys2Proof.Machine

abbrev Result := Host.Outcome State Fault Refusal

/-- Epoch and published chainage, the answer data of ZERO and SET CHAINAGE. -/
def State.referenceData (s : State) : List Byte := le16 s.cu.epoch ++ s32 s.cu.chainage

/-- ZERO (R31). -/
def actZero (_ : Port) (v : Int) (s : State) : State × Reply :=
  let s := s.rereference v .zero
  (s, ⟨.ok, s.referenceData⟩)

def execZero (port : Port) (args : List Byte) (s : State) : Result :=
  .next (s.request 0x12 surfaceOnly parseS32 actZero port args)

/-- SET CHAINAGE: conditional on the expected epoch, 0 for none (R32). -/
def actSetChainage (_ : Port) (a : Int × Half) (s : State) : State × Reply :=
  if a.2 = 0 ∨ a.2 = s.cu.epoch then
    let s := s.rereference a.1 .set
    (s, ⟨.ok, s.referenceData⟩)
  else (s, ⟨.stale, s.referenceData⟩)

def execSetChainage (port : Port) (args : List Byte) (s : State) : Result :=
  .next (s.request 0x13 surfaceOnly parseSetChainage actSetChainage port args)

/-- The steps of R36, in their order. -/
def State.startRun (offset : Int) (direction : Direction) (label : List Byte) (s : State) : State :=
  let s := if s.cu.runState = .survey then s.closeRun true else s
  let s := { s with cu := { s.cu with
      runNumber := nextSkippingZero s.cu.runNumber
      runClock := 0
      clockDue := s.now + ticksOfMs 1
      runState := .survey
      runWheelBase := s.cu.wheelTrack
      runCableBase := s.cu.cableTrack } }
  let s := (s.rereference offset .runStart).reopenWindow
  let s := { s with cu := { s.cu with differing := none } }
  s.journal (.runOpen direction label)

/-- RUN START (R36). -/
def actRunStart (_ : Port) (a : Int × Byte × List Byte) (s : State) : State × Reply :=
  match Direction.ofCode a.2.1.toNat with
  | none => (s, bare .range)
  | some direction =>
    let s := s.startRun a.1 direction a.2.2
    (s, ⟨.ok, le16 s.cu.runNumber ++ s.referenceData⟩)

def execRunStart (port : Port) (args : List Byte) (s : State) : Result :=
  .next (s.request 0x10 surfaceOnly parseRunStart actRunStart port args)

/-- RUN END (R38). -/
def actRunEnd (_ : Port) (_ : Unit) (s : State) : State × Reply :=
  match s.cu.runState with
  | .idle => (s, bare .state)
  | .survey =>
    let s := s.closeRun false
    (s, ⟨.ok, le16 s.cu.runNumber ++ s32 s.cu.chainage⟩)

def execRunEnd (port : Port) (args : List Byte) (s : State) : Result :=
  .next (s.request 0x11 surfaceOnly parseNone actRunEnd port args)

/-- REEL REPORT (R5); on the surface port its reply is never sent. -/
def actReelReport (_ : Port) (count : Word32) (s : State) : State × Reply := (s.takeReel count, bare .ok)

def execReelReport (port : Port) (args : List Byte) (s : State) : Result :=
  .next (s.request reelReportCode surfaceOnly parseU32 actReelReport port args)

/-- WHEEL_FILTER_ACCEPT: the levels accepted at this sample are decoded (R1 to R4). -/
def execWheelFilterAccept (wa wb : Bool) (s : State) : Result :=
  .next (s.whenRunning (State.acceptPair wa wb))

/-- The silence timer reaches its limit, if it runs (R8). -/
def State.expireSilence (s : State) : State :=
  match s.cu.silenceStart with
  | some start => (s.reach (start + ticksOfMs s.cfg.reelSilenceLimit)).loseCable
  | none => s

def execReelSilenceExpiry (s : State) : Result := .next (s.whenRunning State.expireSilence)

/-- A gate expiry (R20) with what reads the new velocity: the dwell test (R114) and the halt
controller (R127, R128). -/
def State.takeGate (s : State) : State :=
  let old := s.cu.velocity
  (((s.reach s.cu.gateDue).gate).dwellAtGate old).haltAtGate

def execVelocityGate (s : State) : Result := .next (s.whenRunning State.takeGate)

/-- A 1 ms expiry increments the run clock; its timer runs continuously (R39). -/
def State.tickClock (s : State) : State :=
  let s := s.reach s.cu.clockDue
  { s with cu := { s.cu with runClock := s.cu.runClock + 1, clockDue := s.cu.clockDue + ticksOfMs 1 } }

def execRunClockTick (s : State) : Result := .next (s.whenRunning State.tickClock)

end Sys2Proof.Machine
end

