-- ==== Sys2Proof/Machine/Power.lean ====
section
/-! DEFINITION. Current commands (chapter 4): CLAIM, its timeout, and the tether sag. -/

namespace Sys2Proof.Machine

/-- The claim record as it stands: granted, requested, state (4.3). -/
def Claim.data (c : Claim) : List Byte := u16 c.granted ++ u16 c.requested ++ u8 c.state.code

/-- CLAIM: every answer carries the asking port's record after the request (4.3, R62 to R64). -/
def actClaim (p : Port) (x : Half) (s : State) : State × Reply :=
  let (s, status) := s.takeClaim p x.toNat
  (s, ⟨status, (s.ca.claims.get p).data⟩)

def execClaim (port : Port) (args : List Byte) (s : State) : Result :=
  .next (s.request 0x20 anyPort parseU16 actClaim port args)

/-- A claim timer expires, if it runs (R68, R69). -/
def State.timeOutClaim (p : Port) (s : State) : State :=
  match (s.ca.claims.get p).state with
  | .pending due => (s.reach due).expireClaim p
  | .settled => s

def execClaimTimeout (port : Port) (s : State) : Result := .next (s.whenRunning (State.timeOutClaim port))

/-- TSAG's assertion is accepted: a change only from deasserted (R72, R73; log 11). -/
def State.acceptSag (s : State) : State := if s.ca.sag = none then s.assertSag else s

def execSagAssert (s : State) : Result := .next (s.whenRunning State.acceptSag)

/-- TSAG's release is accepted: a change only from asserted (R72, R74; log 11). -/
def State.acceptSagEnd (s : State) : State :=
  match s.ca.sag with
  | some start => s.releaseSag start
  | none => s

def execSagRelease (s : State) : Result := .next (s.whenRunning State.acceptSagEnd)

end Sys2Proof.Machine
end

