-- ==== Sys2Proof/Machine/Table.lean ====
section
/-! DEFINITION. Requests on the waypoint table (3.2): WAYPOINT PLACE, CLEAR and READ. -/

namespace Sys2Proof.Machine

/-- The code of ANY (12.2). -/
def anySlot : Byte := 0xFF

/-- The action of a PLACE: PRESET needs a preset of 0 to 3, every other action none (R42). -/
def placeAction (action : Nat) (preset : Option Byte) : Option Action :=
  match action, preset with
  | 0, none => some .mark
  | 1, none => some .still
  | 2, none => some .halt
  | 3, none => some .haltStill
  | 4, some k => (fin4? k.toNat).map Action.preset
  | _, _ => none

/-- The interval and remaining of a PLACE pass R42. -/
def placeRepeatOk (sense : Sense) (interval remaining : Option Nat) : Bool :=
  match interval with
  | some i => decide (10 ≤ i) && decide (i ≤ 100000) && sense ≠ .both && remaining ≠ some 0
  | none => remaining.isNone

/-- The entry that a PLACE asks for, when its arguments pass R42 but for the slot number. -/
def placeEntry (p : Port) (a : PlaceArgs) : Option Waypoint :=
  match Sense.ofCode a.sense.toNat, placeAction a.action.toNat a.preset with
  | some sense, some action =>
    if chMin ≤ a.point ∧ a.point ≤ chMax ∧ placeRepeatOk sense a.interval a.remaining = true then
      some ⟨p, a.point, sense, action, a.code, a.interval, a.remaining⟩
    else none
  | _, _ => none

/-- Whether a port may place over or clear a slot: only an ARMED slot has an owner to ask, and the
surface port passes for every entry (R43, R45). -/
def mayTake (p : Port) : Slot → Bool
  | .armed e _ => p = .surface || e.owner = p
  | _ => true

/-- ANY takes the lowest-numbered slot that is FREE or SPENT (R43). -/
def State.openSlot (s : State) : Option (Fin 16) :=
  slotNumbers.find? fun i =>
    match s.slot i with
    | .armed .. => false
    | _ => true

/-- The slot that a PLACE takes, or its refusal (R43). -/
def State.choosePlace (p : Port) (slot : Byte) (s : State) : Except Status (Fin 16) :=
  if slot = anySlot then
    match s.openSlot with
    | some i => .ok i
    | none => .error .full
  else
    match fin16? slot.toNat with
    | some i => if mayTake p (s.slot i) then .ok i else .error .owner
    | none => .error .range

/-- WAYPOINT PLACE (R42, R43): arguments first, then the slot; the new entry's side is computed from
the chainage at that moment. -/
def actPlace (p : Port) (a : PlaceArgs) (s : State) : State × Reply :=
  if a.slot ≠ anySlot ∧ 16 ≤ a.slot.toNat then (s, bare .range)
  else
    match placeEntry p a with
    | none => (s, bare .range)
    | some e =>
      match s.choosePlace p a.slot with
      | .error status => (s, bare status)
      | .ok i =>
        let side := sideOf s.cu.chainage e.point
        (s.setSlot i (.armed e side), ⟨.ok, u8 i.val ++ u8 side.code⟩)

def execWaypointPlace (port : Port) (args : List Byte) (s : State) : Result :=
  .next (s.request 0x18 anyPort parsePlace actPlace port args)

/-- WAYPOINT CLEAR (R45). -/
def actClear (p : Port) (slot : Byte) (s : State) : State × Reply :=
  match fin16? slot.toNat with
  | none => (s, bare .range)
  | some i => if mayTake p (s.slot i) then (s.setSlot i .free, ⟨.ok, u8 i.val⟩) else (s, bare .owner)

def execWaypointClear (port : Port) (args : List Byte) (s : State) : Result :=
  .next (s.request 0x19 anyPort parseU8 actClear port args)

/-- WAYPOINT READ (R46). -/
def actRead (_ : Port) (slot : Byte) (s : State) : State × Reply :=
  match fin16? slot.toNat with
  | none => (s, bare .range)
  | some i => (s, ⟨.ok, (s.slot i).bytes⟩)

def execWaypointRead (port : Port) (args : List Byte) (s : State) : Result :=
  .next (s.request 0x1A anyPort parseU8 actRead port args)

end Sys2Proof.Machine
end

