-- ==== Sys2Proof/Machine/Picture.lean ====
section
/-! DEFINITION. Stills, halts, lamps and posted attributes (chapters 6 to 8): the requests of these
blocks and the expiries of their timers. -/

namespace Sys2Proof.Machine

/-! ### Stills and halts (chapter 7) -/

/-- STILL joins at the tail, or is refused with FULL (R120). -/
def actStill (p : Port) (code : Option Half) (s : State) : State × Reply :=
  if s.sq.length < stillPlaces then
    let s := s.joinStill ⟨.port p, code, false⟩
    (s, ⟨.ok, u8 s.sq.length⟩)
  else (s, bare .full)

def execStill (port : Port) (args : List Byte) (s : State) : Result :=
  .next (s.request 0x28 anyPort parseStill actStill port args)

/-- HALT starts a sequence in IDLE; the answer carries the state after the request (R125). -/
def actHalt (_ : Port) (_ : Unit) (s : State) : State × Reply :=
  match s.hc.seq with
  | none =>
    let s := s.startHalt .halt .surface
    (s, ⟨.ok, u8 (haltStateCode s.hc.seq)⟩)
  | some _ => (s, ⟨.busy, u8 (haltStateCode s.hc.seq)⟩)

def execHalt (port : Port) (args : List Byte) (s : State) : Result :=
  .next (s.request 0x29 surfaceOnly parseNone actHalt port args)

/-- HALT ACK moves ASKED to SETTLING (R126). -/
def actHaltAck (_ : Port) (_ : Unit) (s : State) : State × Reply :=
  match s.hc.seq with
  | some q =>
    if q.state = .asked then
      (((s.setSeq (some { q with state := .settling })).journal (q.record .acked none)).beginSettling q,
        bare .ok)
    else (s, bare .state)
  | none => (s, bare .state)

def execHaltAck (port : Port) (args : List Byte) (s : State) : Result :=
  .next (s.request 0x2A driveOnly parseNone actHaltAck port args)

/-- The surface may end any sequence, the other ports one whose waypoint they own (R130). -/
def mayResume (p : Port) (q : HaltSeq) : Bool :=
  p = .surface ||
    match q.origin with
    | .waypoint _ owner => owner = p
    | .surface => false

/-- RESUME ends the sequence (R130). -/
def actResume (p : Port) (_ : Unit) (s : State) : State × Reply :=
  match s.hc.seq with
  | none => (s, bare .state)
  | some q =>
    if mayResume p q then (s.endHalt q .resumed (some (.port p)), bare .ok) else (s, bare .rights)

def execResume (port : Port) (args : List Byte) (s : State) : Result :=
  .next (s.request 0x2B anyPort parseNone actResume port args)

/-- The settle timer expires, if it runs (R127, R128). -/
def State.expireSettle (s : State) : State :=
  match s.hc.seq with
  | some q =>
    match q.settle with
    | .running due => (s.reach due).reachStanding q
    | _ => s
  | none => s

def execSettleExpiry (s : State) : Result := .next (s.whenRunning State.expireSettle)

/-- The halt timer expires, if it runs (R129). -/
def State.expireHalt (s : State) : State :=
  match s.hc.seq with
  | some q =>
    match q.haltDue with
    | some due => (s.reach due).haltTimedOut q
    | none => s
  | none => s

def execHaltTimeout (s : State) : Result := .next (s.whenRunning State.expireHalt)

/-! ### Lamps (chapter 6) -/

/-- LAMP MODE writes the mode that the next boundary latches (R104). -/
def actLampMode (_ : Port) (mode : Byte) (s : State) : State × Reply :=
  match LampMode.ofCode mode.toNat with
  | none => (s, bare .range)
  | some m => ({ s with ld := { s.ld with writtenMode := m } }, ⟨.ok, u8 m.code⟩)

def execLampMode (port : Port) (args : List Byte) (s : State) : Result :=
  .next (s.request 0x30 surfaceOnly parseU8 actLampMode port args)

/-- Each weight is 0 to 15 (R106, R107). -/
def weightsOk (w : Four Nat) : Bool := w.toList.all fun x => decide (x ≤ 15)

/-- LAMP WEIGHTS replaces the pending weights whole (R106). -/
def actLampWeights (_ : Port) (w : Four Nat) (s : State) : State × Reply :=
  if weightsOk w then ({ s with ld := { s.ld with pendingWeights := w } }, ⟨.ok, weightBytes w⟩)
  else (s, bare .range)

def execLampWeights (port : Port) (args : List Byte) (s : State) : Result :=
  .next (s.request 0x31 surfaceOrHead parseWeights actLampWeights port args)

/-- PRESET WRITE replaces one preset and nothing else (R107). -/
def actPresetWrite (_ : Port) (a : Byte × Four Nat) (s : State) : State × Reply :=
  match fin4? a.1.toNat with
  | some k =>
    if weightsOk a.2 then
      ({ s with ld := { s.ld with presets := s.ld.presets.set k a.2 } }, bare .ok)
    else (s, bare .range)
  | none => (s, bare .range)

def execPresetWrite (port : Port) (args : List Byte) (s : State) : Result :=
  .next (s.request 0x32 surfaceOnly parsePresetWrite actPresetWrite port args)

/-- PRESET SELECT copies a preset into the pending weights (R108). -/
def actPresetSelect (_ : Port) (k : Byte) (s : State) : State × Reply :=
  match fin4? k.toNat with
  | some k =>
    let s := s.selectPreset k
    (s, ⟨.ok, weightBytes s.ld.pendingWeights⟩)
  | none => (s, bare .range)

def execPresetSelect (port : Port) (args : List Byte) (s : State) : Result :=
  .next (s.request 0x33 surfaceOrHead parseU8 actPresetSelect port args)

/-- A PWM period of 50 µs in ticks (R112). -/
def pwmTicks : Nat := 100

/-- The period ends, if the timer runs: the pending pairs are adopted and the next period begins
(R113). -/
def State.endPwmPeriod (s : State) : State :=
  match s.ld.pwmStart with
  | some start =>
    let s := s.reach (start + pwmTicks)
    { s with ld := s.ld.startPeriod (start + pwmTicks) }
  | none => s

def execPwmPeriodEnd (s : State) : Result := .next (s.whenRunning State.endPwmPeriod)

/-- Ticks of a pair's on-steps of 50/1,024 µs, rounded up (R112, log 15). -/
def PwmPair.onTicks (p : PwmPair) : Nat := ceilDiv (p.on * pwmTicks) 1024

/-- The on-steps of a channel end, if the timer runs and the pair has off-steps (R112). -/
def State.endPwmOn (c : Fin 4) (s : State) : State :=
  match s.ld.pwmStart with
  | some start =>
    let pair := s.ld.activePairs.get c
    if pair.off = 0 then s
    else
      let s := s.reach (start + pair.onTicks)
      { s with ld := { s.ld with outputs := s.ld.outputs.set c 0 } }
  | none => s

def execPwmOnEnd (channel : Fin 4) (s : State) : Result := .next (s.whenRunning (State.endPwmOn channel))

/-- The standstill time reaches a non-zero dwell time: DWELL begins if the still queue is empty
(R114). -/
def State.beginDwell (s : State) : State :=
  match s.ld.standstill with
  | some start =>
    if s.cfg.dwellTime ≠ 0 ∧ s.ld.dwell = false ∧ s.sq = [] then
      let s := s.reach (start + ticksOfMs s.cfg.dwellTime)
      { s with ld := { s.ld with dwell := true } }
    else s
  | none => s

def execDwellStart (s : State) : Result := .next (s.whenRunning State.beginDwell)

/-! ### Posted attributes (8.1) -/

/-- The freshness timer, 500 ms (R138). -/
def freshMs : Nat := 500

/-- ATTITUDE: incline clamped, roll modulo 3,600 (R136). -/
def storedAttitude (incline roll : Int) : Attitude :=
  ⟨clampInt (-9000) 9000 incline, (roll.emod 3600).toNat⟩

def actAttitude (_ : Port) (a : Int × Int) (s : State) : State × Reply :=
  let x := storedAttitude a.1 a.2
  ({ s with fs := { s.fs with attitude := some ⟨x, s.now + ticksOfMs freshMs⟩ } },
    ⟨.ok, s16 x.incline ++ u16 x.roll⟩)

def execAttitude (port : Port) (args : List Byte) (s : State) : Result :=
  .next (s.request 0x38 driveOnly parseAttitude actAttitude port args)

/-- POSE: pan modulo 3,600, tilt clamped, a zoom step of 0 taken as 1 (R137). -/
def storedPose (pan tilt : Int) (zoom : Nat) : Pose :=
  ⟨(pan.emod 3600).toNat, clampInt (-900) 900 tilt, if zoom = 0 then 1 else zoom⟩

def actPose (_ : Port) (a : Int × Int × Nat) (s : State) : State × Reply :=
  let x := storedPose a.1 a.2.1 a.2.2
  ({ s with fs := { s.fs with pose := some ⟨x, s.now + ticksOfMs freshMs⟩ } },
    ⟨.ok, u16 x.pan ++ s16 x.tilt ++ u8 x.zoom⟩)

def execPose (port : Port) (args : List Byte) (s : State) : Result :=
  .next (s.request 0x39 headOnly parsePose actPose port args)

/-- A freshness timer expires, if it runs: the attribute becomes ABSENT (R138). -/
def State.expireAttribute (which : Posted) (s : State) : State :=
  match which with
  | .attitude =>
    match s.fs.attitude with
    | some x =>
      let s := s.reach x.due
      { s with fs := { s.fs with attitude := none } }
    | none => s
  | .pose =>
    match s.fs.pose with
    | some x =>
      let s := s.reach x.due
      { s with fs := { s.fs with pose := none } }
    | none => s

def execAttributeExpiry (which : Posted) (s : State) : Result :=
  .next (s.whenRunning (State.expireAttribute which))

/-! ### Frame events (5.2, 5.3) -/

/-- FRAME_BOUNDARY: the frame timer expires (R79). -/
def execFrameBoundary (s : State) : Result :=
  .next (s.whenRunning fun s => (s.reach s.fs.frameDue).boundary)

/-- Strobe on comes once in the PRE of a frame (R78, R111). -/
def State.takeStrobe (s : State) : State :=
  if s.fs.phase = .pre ∧ s.fs.windowOpen = false then (s.reach s.fs.strobeAt).strobe else s

def execStrobeOn (s : State) : Result := .next (s.whenRunning State.takeStrobe)

/-- Exposure start ends PRE (R80). -/
def State.takeExposure (s : State) : State :=
  if s.fs.phase = .pre then (s.reach s.fs.exposeAt).expose else s

def execExposureStart (s : State) : Result := .next (s.whenRunning State.takeExposure)

/-- The midpoint comes once in the EXPOSE of a frame (R81). -/
def State.takeMidpoint (s : State) : State :=
  match s.fs.current with
  | some f =>
    if s.fs.phase = .expose ∧ f.capture = none then
      let s := s.reach s.fs.midpointAt
      s.updateFrame (FrameRecord.withCapture s.captureNow)
    else s
  | none => s

def execMidpointCapture (s : State) : Result := .next (s.whenRunning State.takeMidpoint)

/-- Exposure end ends EXPOSE (R82). -/
def State.takeExposureEnd (s : State) : State :=
  match s.fs.current with
  | some f => if s.fs.phase = .expose then (s.reach s.fs.endAt).endExposure f else s
  | none => s

def execExposureEnd (s : State) : Result := .next (s.whenRunning State.takeExposureEnd)

/-- A complete luma report: the assembly then waits for the next low period (R189), and the report is
handled at once (R84). -/
def State.takeLuma (tag : Byte) (luma : Half) (s : State) : State :=
  ({ s with sp := { s.sp with bits := [], armed := false } }).reportLuma tag luma.toNat

def execLumaReport (tag : Byte) (luma : Half) (s : State) : Result :=
  .next (s.whenRunning (State.takeLuma tag luma))

/-- A low period of 20 µs on LRCK discards the bits taken so far and lets the next rising edge start a
report (R189). Commanded, it does so whatever LRCK shows and however long it has been low, and the clock
stays (DESIGN CHOICE, log 30). -/
def State.lowPeriod (s : State) : State :=
  { s with sp := { s.sp with bits := [], armed := true, lowSince := none } }

def execLrckLowPeriod (s : State) : Result := .next (s.whenRunning State.lowPeriod)

end Sys2Proof.Machine
end

