-- ==== Sys2Proof/Machine/Journaling.lean ====
section
/-! DEFINITION. Requests on the journal (9.4, 9.5, 9.7): reading by cursor, binding, CLEAR, MODE, MARK
and NOTE. -/

namespace Sys2Proof.Machine

/-! ### Cursors and bindings (R153) -/

/-- A port's cursor moves. -/
def State.setCursor (p : Port) (n : Nat) (s : State) : State :=
  { s with jn := { s.jn with cursors := s.jn.cursors.set p n } }

def State.setBinding (p : Port) (bound : Bool) (s : State) : State :=
  { s with jn := { s.jn with bound := s.jn.bound.set p bound } }

/-- The stored records from sequence number n on, oldest first (R144). -/
def Journal.recordsFrom (j : Journal) (n : Nat) : List Record := j.store.drop (n - j.base)

/-! ### Reading (R154, R155) -/

/-- What a read finds at a port's cursor: nothing new, records lost, or records. -/
inductive ReadCase where
  | caughtUp
  | overtaken (lost : Nat)
  | records (rs : List Record)
  deriving DecidableEq, Repr

/-- The first case of R154 that applies. -/
def Journal.readCase (p : Port) (j : Journal) : ReadCase :=
  let cursor := j.cursors.get p
  if cursor = j.next then .caughtUp
  else if cursor < j.base then .overtaken (j.base - cursor)
  else .records (j.recordsFrom cursor)

/-- The answer GAP: its count, and the cursor moved to base (R154). -/
def State.answerGap (p : Port) (lost : Nat) (s : State) : State × Reply :=
  (s.setCursor p s.jn.base, ⟨.gap, u32 lost⟩)

/-- JOURNAL NEXT (R154); a cursor with no record at it is not reachable and is answered NONE
(log 26). -/
def actNext (p : Port) (_ : Unit) (s : State) : State × Reply :=
  match s.jn.readCase p with
  | .caughtUp | .records [] => (s, bare .none)
  | .overtaken lost => s.answerGap p lost
  | .records (r :: _) => (s.setCursor p (s.jn.cursors.get p + 1), ⟨.ok, r.bytes⟩)

def execJournalNext (port : Port) (args : List Byte) (s : State) : Result :=
  .next (s.request 0x40 anyPort parseNone actNext port args)

/-- At most eight records in a bulk answer (R155). -/
def bulkRecords : Nat := 8

/-- At most 240 bytes of records in a bulk answer (R155). -/
def bulkBytes : Nat := 240

/-- The records taken one by one while `count` may still be taken and `room` bytes are left (R155). -/
def bulkTake : Nat → Nat → List Record → List Record
  | 0, _, _ => []
  | _, _, [] => []
  | count + 1, room, r :: rs =>
    if 4 * r.body.words ≤ room then r :: bulkTake count (room - 4 * r.body.words) rs else []

/-- JOURNAL BULK (R155). -/
def actBulk (p : Port) (_ : Unit) (s : State) : State × Reply :=
  match s.jn.readCase p with
  | .caughtUp | .records [] => (s, bare .none)
  | .overtaken lost => s.answerGap p lost
  | .records (r :: rs) =>
    let taken := bulkTake bulkRecords bulkBytes (r :: rs)
    (s.setCursor p (s.jn.cursors.get p + taken.length),
      ⟨.ok, u8 taken.length ++ (taken.map Record.bytes).flatten⟩)

def execJournalBulk (port : Port) (args : List Byte) (s : State) : Result :=
  .next (s.request 0x41 anyPort parseNone actBulk port args)

/-! ### Seeking and binding (R153, R156) -/

/-- The answer data of SEEK and REWIND. -/
def State.cursorData (p : Port) (s : State) : List Byte := u32 (s.jn.cursors.get p)

/-- JOURNAL SEEK: a number from base to N (R156). -/
def actSeek (p : Port) (n : Word32) (s : State) : State × Reply :=
  if s.jn.base ≤ n.toNat ∧ n.toNat ≤ s.jn.next then
    let s := s.setCursor p n.toNat
    (s, ⟨.ok, s.cursorData p⟩)
  else (s, bare .range)

def execJournalSeek (port : Port) (args : List Byte) (s : State) : Result :=
  .next (s.request 0x42 anyPort parseU32 actSeek port args)

/-- JOURNAL REWIND: the cursor at base (R156). -/
def actRewind (p : Port) (_ : Unit) (s : State) : State × Reply :=
  let s := s.setCursor p s.jn.base
  (s, ⟨.ok, s.cursorData p⟩)

def execJournalRewind (port : Port) (args : List Byte) (s : State) : Result :=
  .next (s.request 0x43 anyPort parseNone actRewind port args)

/-- The answer data of BIND and UNBIND: the cursor, and the binding as 0 UNBOUND, 1 BOUND. -/
def State.bindingData (p : Port) (s : State) : List Byte :=
  s.cursorData p ++ u8 (s.jn.bound.get p).toNat

/-- JOURNAL BIND and UNBIND (R153). -/
def actBinding (bound : Bool) (p : Port) (_ : Unit) (s : State) : State × Reply :=
  let s := s.setBinding p bound
  (s, ⟨.ok, s.bindingData p⟩)

def execJournalBind (port : Port) (args : List Byte) (s : State) : Result :=
  .next (s.request 0x44 anyPort parseNone (actBinding true) port args)

def execJournalUnbind (port : Port) (args : List Byte) (s : State) : Result :=
  .next (s.request 0x45 anyPort parseNone (actBinding false) port args)

/-! ### CLEAR and MODE (R152, R157) -/

/-- Every stored record goes, and all three cursors stand at N (R157). -/
def State.clearJournal (s : State) : State :=
  { s with jn := { s.jn with store := [], cursors := .all s.jn.next } }

/-- JOURNAL CLEAR (R157). -/
def actClearJournal (_ : Port) (_ : Unit) (s : State) : State × Reply :=
  let s := s.clearJournal
  (s, ⟨.ok, u32 s.jn.next⟩)

def execJournalClear (port : Port) (args : List Byte) (s : State) : Result :=
  .next (s.request 0x46 surfaceOnly parseNone actClearJournal port args)

/-- JOURNAL MODE (R152). -/
def actJournalMode (_ : Port) (mode : Byte) (s : State) : State × Reply :=
  match JournalMode.ofCode mode.toNat with
  | none => (s, bare .range)
  | some m =>
    ({ s with jn := { s.jn with mode := m } }, ⟨.ok, u8 m.code ++ u32 s.jn.dropCount⟩)

def execJournalMode (port : Port) (args : List Byte) (s : State) : Result :=
  .next (s.request 0x47 surfaceOnly parseU8 actJournalMode port args)

/-! ### MARK and NOTE (R159, R160) -/

/-- A record handed by a request: the answer carries the number it received, 0 when dropped (R159). -/
def State.journalForRequest (b : Body) (s : State) : State × Reply :=
  let handed := s.handRecord s.header b
  (handed.1, ⟨.ok, u32 handed.2⟩)

/-- MARK: cause the asking port, n of 1, no note (R159). -/
def actMark (p : Port) (code : Half) (s : State) : State × Reply :=
  s.journalForRequest (.mark (.port p) false false 1 (some code))

def execMark (port : Port) (args : List Byte) (s : State) : Result :=
  .next (s.request 0x48 surfaceOrHead parseU16 actMark port args)

/-- NOTE: the text as sent (R160). -/
def actNote (_ : Port) (text : List Byte) (s : State) : State × Reply := s.journalForRequest (.note text)

def execNote (port : Port) (args : List Byte) (s : State) : Result :=
  .next (s.request 0x49 surfaceOnly parseNote actNote port args)

end Sys2Proof.Machine
end

