-- ==== Sys2Proof/Machine/Settings.lean ====
section
/-! DEFINITION. Configuration (10.8): reading and writing every parameter by its name code (12.2), the
checks of CONFIG SET in their order, and what a write does at once. -/

namespace Sys2Proof.Machine

/-! ### The lines' parameters -/

/-- A write of a line's function, polarity or debounce width (R181); `kind` is 0, 1 or 2. -/
def LineSetting.put (kind : Nat) (v : Int) (l : LineSetting) : Option LineSetting :=
  match kind with
  | 0 => (LineFunction.ofCode v).map fun f => { l with function := f }
  | 1 => (Polarity.ofCode v).map fun p => { l with polarity := p }
  | _ => if 1 ≤ v ∧ v ≤ 255 then some { l with debounce := v.toNat } else none

def LineSetting.value (kind : Nat) (l : LineSetting) : Int :=
  match kind with
  | 0 => l.function.code
  | 1 => l.polarity.code
  | _ => l.debounce

/-- Name codes 20H + n function, 24H + n polarity, 28H + n debounce width: the kind and the line. -/
def lineName (code : Nat) : Option (Nat × Fin 4) :=
  if 0x20 ≤ code ∧ code < 0x2C then (fin4? (code % 4)).map fun n => ((code - 0x20) / 4, n) else none

/-! ### Writing (R176, R100) -/

/-- A value within a fixed range, written by `write`. -/
def rangedNat (lo hi : Int) (v : Int) (write : Nat → Settings) : Option Settings :=
  if lo ≤ v ∧ v ≤ hi then some (write v.toNat) else none

/-- A frame period that is taken lowers tu to Tf − 2,000 (R100). -/
def Settings.putFramePeriod (tf : Nat) (c : Settings) : Settings :=
  { c with framePeriod := tf, userExposure := min c.userExposure (tf - readoutGuard) }

/-- A D_max that is taken lowers Dd to D_max (R100). -/
def Settings.putDMax (d : Nat) (c : Settings) : Settings :=
  { c with dMax := d, dwellLevel := min c.dwellLevel d }

/-- The settings after a write, or none where the name code names no parameter that CONFIG SET writes
or the value is out of range (R176 steps 1 and 2; codes in the order of 10.8). -/
def Settings.putNamed (code : Nat) (v : Int) (c : Settings) : Option Settings :=
  match code with
  | 0x01 => rangedNat 1 65535 v fun n => { c with wheelScale := n }
  | 0x02 => rangedNat 1 65535 v fun n => { c with reelScale := n }
  | 0x03 => rangedNat 100 10000 v fun n => { c with windowLength := n }
  | 0x04 => rangedNat 1 255 v fun n => { c with toleranceFactor := n }
  | 0x05 => rangedNat 1 4 v fun n => { c with confirmCount := n }
  | 0x06 => rangedNat 1 65535 v fun n => { c with reelJumpLimit := n }
  | 0x07 => rangedNat 50 2000 v fun n => { c with reelSilenceLimit := n }
  | 0x08 => rangedNat 0 255 v fun n => { c with glitchWidth := n }
  | 0x09 => (SourceMode.ofCode v).map fun m => { c with sourceMode := m }
  | 0x0A => if chMin ≤ v ∧ v ≤ chMax then some { c with zeroOffset := v } else none
  | 0x0B => rangedNat 100 5000 v fun n => { c with tetherAllowance := n }
  | 0x0C => rangedNat 0 1000 v fun n => { c with lampFloor := n }
  | 0x0D => rangedNat 100 5000 v fun n => { c with claimTimeout := n }
  | 0x0E => rangedNat 10000 100000 v fun n => c.putFramePeriod n
  | 0x0F => rangedNat 20 (c.framePeriod - 2000) v fun n => { c with userExposure := n }
  | 0x10 => rangedNat 64 960 v fun n => { c with lumaTarget := n }
  | 0x11 => rangedNat 50 5000 v fun n => { c with blurLimit := n }
  | 0x12 => rangedNat (max 50 c.dMin) 3000 v fun n => c.putDMax n
  | 0x13 => rangedNat 10 (min 500 c.dMax) v fun n => { c with dMin := n }
  | 0x14 => rangedNat 256 4096 v fun n => { c with gMax := n }
  | 0x15 => rangedNat 0 c.dMax v fun n => { c with dwellLevel := n }
  | 0x16 => rangedNat 0 1000 v fun n => { c with journalInterval := n }
  | 0x17 => rangedNat 10 1000 v fun n => { c with channelMax := n }
  | 0x18 => rangedNat 0 60000 v fun n => { c with dwellTime := n }
  | 0x19 => rangedNat 500 30000 v fun n => { c with haltTimeout := n }
  | 0x1A => rangedNat 0 2000 v fun n => { c with settleTime := n }
  | _ => none

/-- A write of any parameter, the lines' among them. -/
def Settings.put (code : Nat) (v : Int) (c : Settings) : Option Settings :=
  match lineName code with
  | some (kind, n) =>
    ((c.lines.get n).put kind v).map fun l => { c with lines := c.lines.set n l }
  | none => c.putNamed code v

/-- Whether a name code is that of the tether allowance or the lamp floor (R70). -/
def namesBudget (code : Nat) : Bool := code = 0x0B || code = 0x0C

/-- The running candidates of the two phases are judged against the glitch width in force (R1). -/
def State.rejudgePhases (s : State) : State :=
  { s with cu := { s.cu with
      candA := rejudge s.cfg.glitchWidth s.cu.candA
      candB := rejudge s.cfg.glitchWidth s.cu.candB } }

/-- The running candidate of line n is judged against its width in force (R181). -/
def State.rejudgeLine (n : Fin 4) (s : State) : State :=
  { s with li := { s.li with
      cands := s.li.cands.set n (rejudge (s.cfg.lineWidth n) (s.li.cands.get n)) } }

/-- What a written value does at once (R1, R8, R18, R70, R115, R181); every other setting is read where
it is used. -/
def State.actOnSetting (code : Nat) (s : State) : State :=
  match code with
  | 0x07 => if s.silenceReached then s.loseCable else s
  | 0x08 => s.rejudgePhases
  | 0x09 => s.chooseTrust
  | 0x0B => s.serve
  | 0x0C => s.serve
  | 0x18 => s.dwellTimeWritten
  | 0x28 => s.rejudgeLine 0
  | 0x29 => s.rejudgeLine 1
  | 0x2A => s.rejudgeLine 2
  | 0x2B => s.rejudgeLine 3
  | _ => s

/-- CONFIG SET (R176): name and range, then the grants in force, then the write. -/
def actConfigSet (_ : Port) (a : Byte × Int) (s : State) : State × Reply :=
  match s.cfg.put a.1.toNat a.2 with
  | none => (s, bare .range)
  | some cfg =>
    if namesBudget a.1.toNat &&
        !budgetFits cfg.tetherAllowance cfg.lampFloor s.ca.granted s.ca.commit then
      (s, bare .conflict)
    else (({ s with cfg := cfg }).actOnSetting a.1.toNat, ⟨.ok, a.1 :: s32 a.2⟩)

def execConfigSet (port : Port) (args : List Byte) (s : State) : Result :=
  .next (s.request 0x04 surfaceOnly parseConfigSet actConfigSet port args)

/-! ### Reading (R177) -/

/-- The number that a parameter of the first 26 name codes holds. -/
def Settings.valueNamed (code : Nat) (c : Settings) : Option Int :=
  match code with
  | 0x01 => some c.wheelScale
  | 0x02 => some c.reelScale
  | 0x03 => some c.windowLength
  | 0x04 => some c.toleranceFactor
  | 0x05 => some c.confirmCount
  | 0x06 => some c.reelJumpLimit
  | 0x07 => some c.reelSilenceLimit
  | 0x08 => some c.glitchWidth
  | 0x09 => some c.sourceMode.code
  | 0x0A => some c.zeroOffset
  | 0x0B => some c.tetherAllowance
  | 0x0C => some c.lampFloor
  | 0x0D => some c.claimTimeout
  | 0x0E => some c.framePeriod
  | 0x0F => some c.userExposure
  | 0x10 => some c.lumaTarget
  | 0x11 => some c.blurLimit
  | 0x12 => some c.dMax
  | 0x13 => some c.dMin
  | 0x14 => some c.gMax
  | 0x15 => some c.dwellLevel
  | 0x16 => some c.journalInterval
  | 0x17 => some c.channelMax
  | 0x18 => some c.dwellTime
  | 0x19 => some c.haltTimeout
  | 0x1A => some c.settleTime
  | _ => none

/-- The number that any parameter holds. -/
def Settings.value (code : Nat) (c : Settings) : Option Int :=
  match lineName code with
  | some (kind, n) => some ((c.lines.get n).value kind)
  | none => c.valueNamed code

/-- The four bytes of a read-only item: 30H pending weights, 31H + k preset k, 35H + c pending level of
channel c, 39H journal mode (12.2). -/
def State.readOnlyItem (code : Nat) (s : State) : Option (List Byte) :=
  match code with
  | 0x30 => some (weightBytes s.ld.pendingWeights)
  | 0x31 => some (weightBytes s.ld.presets.c0)
  | 0x32 => some (weightBytes s.ld.presets.c1)
  | 0x33 => some (weightBytes s.ld.presets.c2)
  | 0x34 => some (weightBytes s.ld.presets.c3)
  | 0x35 => some (u32 s.ld.pendingLevels.c0)
  | 0x36 => some (u32 s.ld.pendingLevels.c1)
  | 0x37 => some (u32 s.ld.pendingLevels.c2)
  | 0x38 => some (u32 s.ld.pendingLevels.c3)
  | 0x39 => some (u32 s.jn.mode.code)
  | _ => none

/-- CONFIG GET (R177): the value last written, or the item as it stands. -/
def actConfigGet (_ : Port) (code : Byte) (s : State) : State × Reply :=
  match s.cfg.value code.toNat with
  | some v => (s, ⟨.ok, code :: s32 v⟩)
  | none =>
    match s.readOnlyItem code.toNat with
    | some bytes => (s, ⟨.ok, code :: bytes⟩)
    | none => (s, bare .range)

def execConfigGet (port : Port) (args : List Byte) (s : State) : Result :=
  .next (s.request 0x03 anyPort parseU8 actConfigGet port args)

end Sys2Proof.Machine
end

