-- ==== Sys2Proof/Machine/Interface.lean ====
section
/-! DEFINITION. The port interface's own commands (chapters 10 and 11): STATUS, EVENTS, RESTART, frames
that name no request or are discarded, the output queue, the answer slots and the link timer. -/

namespace Sys2Proof.Machine

/-! ### STATUS (R172) -/

/-- The halt byte of the snapshot: bits 0 and 1 state, 2 kind, 3 UNCONFIRMED, 4 link halt, 5 DHALT. -/
def HaltController.statusByte (h : HaltController) : Nat :=
  haltStateCode h.seq +
    4 * packBits [h.seq.any fun q => q.kind = .haltStill, h.seq.any HaltSeq.unconfirmed, h.linkHalt, h.dhalt]

/-- The 35 bytes of the snapshot for the asking port (R172, 12.2). -/
def State.snapshot (p : Port) (s : State) : List Byte :=
  let cu := s.cu.published
  let claim := s.ca.claims.get p
  s32 cu.chainage ++ le16 cu.epoch ++ s16 cu.velocity ++ u8 cu.flags ++
  u8 cu.runState.code ++ le16 cu.runNumber ++ le32 cu.runClock ++
  u8 s.hc.statusByte ++
  u8 claim.state.code ++ u16 claim.granted ++ u16 claim.requested ++
  u32 (s.jn.next - 1) ++ u32 (s.jn.cursors.get p) ++
  le32 s.fs.frameNumber ++ u8 s.ld.mode.code

def actStatus (p : Port) (_ : Unit) (s : State) : State × Reply := (s, ⟨.ok, s.snapshot p⟩)

def execStatus (port : Port) (args : List Byte) (s : State) : Result :=
  .next (s.request 0x01 anyPort parseNone actStatus port args)

/-! ### EVENTS (R175) -/

/-- Nine marks as 16 bits (12.1). -/
def eventField (x : BitVec 9) : List Byte := le16 (x.zeroExtend 16)

/-- The latch is read and emptied, and the mask replaced, in one act (R175). -/
def actEvents (p : Port) (mask : Half) (s : State) : State × Reply :=
  let latch := s.pi.latches.get p
  let mask := mask.truncate 9
  ({ s with pi := { s.pi with latches := s.pi.latches.set p 0, masks := s.pi.masks.set p mask } },
    ⟨.ok, eventField latch ++ eventField mask⟩)

def execEvents (port : Port) (args : List Byte) (s : State) : Result :=
  .next (s.request 0x02 anyPort parseU16 actEvents port args)

/-! ### RESTART (R183 to R185) -/

/-- Step 1 under RESEED (R9). -/
def State.reseed (s : State) : State :=
  let s := { s with cu := { s.cu with reelSeed := none } }
  if s.cu.cableLost then s else s.loseCable

/-- Steps 4 and 5: the halt sequence becomes IDLE without a record, and the still queue is emptied
(R134). -/
def State.dropHaltAndStills (s : State) : State :=
  let s := s.setSeq none
  { s with sq := [] }

/-- Step 7: the lamps off, DWELL over, and the standstill time from 0 (R115, R117). -/
def State.restartLamps (s : State) : State :=
  let s := { s with ld := { s.ld.restart with dwell := false } }
  s.startStandstill

/-- Step 8: the event latches emptied (R184). -/
def State.emptyLatches (s : State) : State := { s with pi := { s.pi with latches := .all 0 } }

/-- The nine steps of R184, in their order. -/
def State.restart (reseed : Bool) (s : State) : State :=
  let s := if reseed then s.reseed else s
  let s := s.recomputeSides.clearClaims.dropHaltAndStills.abandonFrame.restartLamps
  (s.emptyLatches.setEventAll .restart).journal .restart

/-- Reseed choice: 0 KEEP, 1 RESEED (R183). -/
def reseedOfCode : Nat → Option Bool
  | 0 => some false
  | 1 => some true
  | _ => none

def actRestart (_ : Port) (choice : Byte) (s : State) : State × Reply :=
  match reseedOfCode choice.toNat with
  | some reseed => (s.restart reseed, bare .ok)
  | none => (s, bare .range)

def execRestart (port : Port) (args : List Byte) (s : State) : Result :=
  .next (s.request 0x05 surfaceOnly parseU8 actRestart port args)

/-! ### Frames that name no request, or are discarded (R163, R169) -/

/-- A code that names no request is refused with UNKNOWN before every other check (R169 step 1). -/
def refuseUnknown (s : State) : State × Reply := (s, bare .unknown)

def execUnknownRequest (port : Port) (code : Byte) (args : List Byte) (s : State) : Result :=
  .next (s.whenRunning fun s => s.deliver code port args refuseUnknown)

/-- A frame with a wrong CRC, or abandoned or cut off: the receiver is in HUNT again, and nothing else
happens (R163). -/
def execInvalidFrame (port : Port) (s : State) : Result :=
  .next (s.whenRunning (State.setReceiver port .hunt))

/-- The first tick at which more than 5 ms have passed since the last byte (R164). The gap is counted
from the receipt of one byte to the receipt of the next, where R164 leaves open between which moments it
lies (DESIGN CHOICE, log 31). -/
def PortInterface.gapDue (x : PortInterface) : Nat := x.lastByte + ticksOfMs 5 + 1

/-- A gap of more than 5 ms inside a frame abandons it (R164); in HUNT no frame is in progress. -/
def State.byteGap (s : State) : State :=
  if s.pi.receivers.surface = .hunt then s else (s.reach s.pi.gapDue).setReceiver .surface .hunt

def execSurfaceByteGapTimeout (s : State) : Result := .next (s.whenRunning State.byteGap)

/-! ### Output queue and answer slots (R164, R166) -/

/-- The answer being sent has been sent, if there is one: the next begins (R164). -/
def State.answerSent (s : State) : State :=
  match s.pi.outQueue with
  | [] => s
  | a :: rest =>
    let sent := s.pi.sendStart + sendTicks s.pi.fastBaud a
    let s := s.reach sent
    { s with pi := { s.pi with outQueue := rest, sendStart := sent } }

def execSurfaceAnswerSent (s : State) : Result := .next (s.whenRunning State.answerSent)

/-- A request is taken within 20 µs of the end of its frame (R166). -/
def takingTicks : Nat := ticksOfUs 20

/-- A valid frame reaches an answer slot (R166): accepted in EMPTY and HELD, discarded in WORKING. -/
def State.acceptRequest (b : BusPort) (code : Byte) (args : List Byte) (s : State) : State :=
  let s := s.setReceiver b.port .hunt
  match s.pi.slot b with
  | .working .. => s
  | _ => s.putSlot b (.working code args (s.now + takingTicks))

def execAnswerSlotAccept (port : BusPort) (code : Byte) (args : List Byte) (s : State) : Result :=
  .next (s.whenRunning (State.acceptRequest port code args))

/-! ### The link timer (R165) -/

/-- The link timer expires, if it runs. -/
def State.linkExpiry (s : State) : State :=
  match s.pi.linkDue with
  | some due => (s.reach due).loseLink
  | none => s

def execLinkTimeout (s : State) : Result := .next (s.whenRunning State.linkExpiry)

end Sys2Proof.Machine
end

