-- ==== Sys2Proof/Machine/Lines.lean ====
section
/-! DEFINITION. The input lines (11.1) and power-on reset (11.2): a line's function at its active edge,
its change to the inactive level, and the assertion and release of RESET. -/

namespace Sys2Proof.Machine

/-! ### The lines -/

/-- The accepted level that is the active one (R180). -/
def Polarity.activeLevel : Polarity → Bool
  | .activeLow => false
  | .activeHigh => true

/-- The accepted level of line n becomes `level`, and the line has no candidate any more (R179). -/
def State.acceptLine (n : Fin 4) (level : Bool) (s : State) : State :=
  { s with li := { s.li with
      accepted := s.li.accepted.set n level, cands := s.li.cands.set n none } }

/-- A line STILL joins the still queue, or is dropped and journaled (R121). -/
def State.lineStill (n : Fin 4) (s : State) : State :=
  if s.sq.length < stillPlaces then s.joinStill ⟨.line n, none, false⟩
  else s.journal (droppedStillMark (.line n) none)

/-- A line RESUME ends the sequence as from the surface, with requester LINE n; in IDLE it does
nothing (R130). -/
def State.lineResume (n : Fin 4) (s : State) : State :=
  match s.hc.seq with
  | some q => s.endHalt q .resumed (some (.line n))
  | none => s

/-- The function of line n, performed once (R180). -/
def State.lineFunction (n : Fin 4) (s : State) : State :=
  match (s.cfg.lines.get n).function with
  | .none => s
  | .zero => s.rereference s.cfg.zeroOffset (.line n)
  | .still => s.lineStill n
  | .mark => s.journal (.mark (.line n) false false 1 none)
  | .resume => s.lineResume n

/-- An active edge: the accepted level is the active one, and the function acts (R180). -/
def State.activeEdge (n : Fin 4) (s : State) : State :=
  (s.acceptLine n (s.cfg.lines.get n).polarity.activeLevel).lineFunction n

def execLineEdge (line : Fin 4) (s : State) : Result := .next (s.whenRunning (State.activeEdge line))

/-- A change to the inactive level performs nothing (R180). -/
def State.inactiveChange (n : Fin 4) (s : State) : State :=
  s.acceptLine n (!(s.cfg.lines.get n).polarity.activeLevel)

def execLineInactiveChange (line : Fin 4) (s : State) : Result :=
  .next (s.whenRunning (State.inactiveChange line))

/-! ### RESET (R182) -/

/-- Every output at rest: the lamps off, OVL high, DMISO high-impedance, HSDA released; DHALT, DATN,
HATN, XP and STXD rest while RESET is asserted. -/
def State.outputsAtRest (s : State) : State :=
  { s with
    ld := s.ld.cut
    sp := { s.sp with ovlBlock := [] }
    pi := { s.pi with
      spi := { s.pi.spi with miso := none }
      i2c := { s.pi.i2c with sda := none, ack := false } } }

/-- RESET is asserted: the outputs go to rest at once, and every block is held (R182). -/
def execResetAssert (s : State) : Result := .next { s.outputsAtRest with resetLine := true }

/-- RESET is released: every block takes its power-on values, with the levels then on the pins; what
is still to come stays (R182, log 10). -/
def execResetRelease (s : State) : Result :=
  .next { State.powerOn s.pins with inputs := s.inputs, pending := s.pending }

end Sys2Proof.Machine
end

