-- ==== Sys2Proof/Machine/Dispatch.lean ====
section
/-! DEFINITION. The meaning of each command: one arm per constructor of Instr. -/

namespace Sys2Proof.Machine

def exec (i : Instr) (s : State) : Host.Outcome State Fault Refusal :=
  match i with
  | .status port args => Sys2Proof.Machine.execStatus port args s
  | .events port args => Sys2Proof.Machine.execEvents port args s
  | .configGet port args => Sys2Proof.Machine.execConfigGet port args s
  | .configSet port args => Sys2Proof.Machine.execConfigSet port args s
  | .restart port args => Sys2Proof.Machine.execRestart port args s
  | .runStart port args => Sys2Proof.Machine.execRunStart port args s
  | .runEnd port args => Sys2Proof.Machine.execRunEnd port args s
  | .zero port args => Sys2Proof.Machine.execZero port args s
  | .setChainage port args => Sys2Proof.Machine.execSetChainage port args s
  | .reelReport port args => Sys2Proof.Machine.execReelReport port args s
  | .waypointPlace port args => Sys2Proof.Machine.execWaypointPlace port args s
  | .waypointClear port args => Sys2Proof.Machine.execWaypointClear port args s
  | .waypointRead port args => Sys2Proof.Machine.execWaypointRead port args s
  | .claim port args => Sys2Proof.Machine.execClaim port args s
  | .still port args => Sys2Proof.Machine.execStill port args s
  | .halt port args => Sys2Proof.Machine.execHalt port args s
  | .haltAck port args => Sys2Proof.Machine.execHaltAck port args s
  | .resume port args => Sys2Proof.Machine.execResume port args s
  | .lampMode port args => Sys2Proof.Machine.execLampMode port args s
  | .lampWeights port args => Sys2Proof.Machine.execLampWeights port args s
  | .presetWrite port args => Sys2Proof.Machine.execPresetWrite port args s
  | .presetSelect port args => Sys2Proof.Machine.execPresetSelect port args s
  | .attitude port args => Sys2Proof.Machine.execAttitude port args s
  | .pose port args => Sys2Proof.Machine.execPose port args s
  | .journalNext port args => Sys2Proof.Machine.execJournalNext port args s
  | .journalBulk port args => Sys2Proof.Machine.execJournalBulk port args s
  | .journalSeek port args => Sys2Proof.Machine.execJournalSeek port args s
  | .journalRewind port args => Sys2Proof.Machine.execJournalRewind port args s
  | .journalBind port args => Sys2Proof.Machine.execJournalBind port args s
  | .journalUnbind port args => Sys2Proof.Machine.execJournalUnbind port args s
  | .journalClear port args => Sys2Proof.Machine.execJournalClear port args s
  | .journalMode port args => Sys2Proof.Machine.execJournalMode port args s
  | .mark port args => Sys2Proof.Machine.execMark port args s
  | .note port args => Sys2Proof.Machine.execNote port args s
  | .unknownRequest port code args => Sys2Proof.Machine.execUnknownRequest port code args s
  | .invalidFrame port => Sys2Proof.Machine.execInvalidFrame port s
  | .surfaceByteGapTimeout => Sys2Proof.Machine.execSurfaceByteGapTimeout s
  | .surfaceAnswerSent => Sys2Proof.Machine.execSurfaceAnswerSent s
  | .answerSlotAccept port code args => Sys2Proof.Machine.execAnswerSlotAccept port code args s
  | .linkTimeout => Sys2Proof.Machine.execLinkTimeout s
  | .wheelFilterAccept wa wb => Sys2Proof.Machine.execWheelFilterAccept wa wb s
  | .reelSilenceExpiry => Sys2Proof.Machine.execReelSilenceExpiry s
  | .velocityGate => Sys2Proof.Machine.execVelocityGate s
  | .runClockTick => Sys2Proof.Machine.execRunClockTick s
  | .claimTimeout port => Sys2Proof.Machine.execClaimTimeout port s
  | .sagAssert => Sys2Proof.Machine.execSagAssert s
  | .sagRelease => Sys2Proof.Machine.execSagRelease s
  | .frameBoundary => Sys2Proof.Machine.execFrameBoundary s
  | .strobeOn => Sys2Proof.Machine.execStrobeOn s
  | .exposureStart => Sys2Proof.Machine.execExposureStart s
  | .midpointCapture => Sys2Proof.Machine.execMidpointCapture s
  | .exposureEnd => Sys2Proof.Machine.execExposureEnd s
  | .lumaReport tag luma => Sys2Proof.Machine.execLumaReport tag luma s
  | .pwmPeriodEnd => Sys2Proof.Machine.execPwmPeriodEnd s
  | .pwmOnEnd channel => Sys2Proof.Machine.execPwmOnEnd channel s
  | .dwellStart => Sys2Proof.Machine.execDwellStart s
  | .settleExpiry => Sys2Proof.Machine.execSettleExpiry s
  | .haltTimeout => Sys2Proof.Machine.execHaltTimeout s
  | .attributeExpiry which => Sys2Proof.Machine.execAttributeExpiry which s
  | .lineEdge line => Sys2Proof.Machine.execLineEdge line s
  | .resetAssert => Sys2Proof.Machine.execResetAssert s
  | .resetRelease => Sys2Proof.Machine.execResetRelease s
  | .lineInactiveChange line => Sys2Proof.Machine.execLineInactiveChange line s
  | .lrckLowPeriod => Sys2Proof.Machine.execLrckLowPeriod s

end Sys2Proof.Machine
end

