-- ==== Sys2Proof/Machine/Wire.lean ====
section
/-! DEFINITION. Below the level of the commands: receivers (R163), the bus front ends (R167, R168),
the input filters (R1, R72, R179), the luma line (R189), and which expiry falls due. On an empty queue
a step takes one of these (log 2, log 5). -/

namespace Sys2Proof.Machine

/-! ### The receiver (R163) -/

/-- What a received byte brings to a receiver's frame. -/
inductive Received where
  | more (r : Receiver)
  | discarded
  | valid (payload : List Byte)
  deriving DecidableEq, Repr

/-- The states of R163. -/
def Receiver.take (b : Byte) : Receiver → Received
  | .hunt => .more (if b = 0xA5 then .length else .hunt)
  | .length => if b = 0 ∨ 250 < b.toNat then .discarded else .more (.body b [])
  | .body len got =>
    let got := got ++ [b]
    .more (if got.length < len.toNat then .body len got else .check len got none)
  | .check len payload none => .more (.check len payload (some b))
  | .check len payload (some first) =>
    if half first b = crc16 (len :: payload) then .valid payload else .discarded

/-- The command that a payload spells on a port (12.1). -/
def requestOf (p : Port) (code : Byte) (args : List Byte) : Instr :=
  match code.toNat with
  | 0x01 => .status p args
  | 0x02 => .events p args
  | 0x03 => .configGet p args
  | 0x04 => .configSet p args
  | 0x05 => .restart p args
  | 0x10 => .runStart p args
  | 0x11 => .runEnd p args
  | 0x12 => .zero p args
  | 0x13 => .setChainage p args
  | 0x14 => .reelReport p args
  | 0x18 => .waypointPlace p args
  | 0x19 => .waypointClear p args
  | 0x1A => .waypointRead p args
  | 0x20 => .claim p args
  | 0x28 => .still p args
  | 0x29 => .halt p args
  | 0x2A => .haltAck p args
  | 0x2B => .resume p args
  | 0x30 => .lampMode p args
  | 0x31 => .lampWeights p args
  | 0x32 => .presetWrite p args
  | 0x33 => .presetSelect p args
  | 0x38 => .attitude p args
  | 0x39 => .pose p args
  | 0x40 => .journalNext p args
  | 0x41 => .journalBulk p args
  | 0x42 => .journalSeek p args
  | 0x43 => .journalRewind p args
  | 0x44 => .journalBind p args
  | 0x45 => .journalUnbind p args
  | 0x46 => .journalClear p args
  | 0x47 => .journalMode p args
  | 0x48 => .mark p args
  | 0x49 => .note p args
  | _ => .unknownRequest p code args

/-! ### The surface front end (R164) -/

/-- A character on SRXD, at the level of its stop bit: a framing error abandons the frame; a valid frame is taken at once. -/
def State.surfaceByte (b : Byte) (stopBit : Bool) (s : State) : Result :=
  if stopBit then
    let s := { s with pi := { s.pi with lastByte := s.now } }
    match s.pi.receivers.surface.take b with
    | .more r => .next (s.setReceiver .surface r)
    | .discarded => exec (.invalidFrame .surface) s
    | .valid (code :: args) => exec (requestOf .surface code args) s
    | .valid [] => exec (.invalidFrame .surface) s
  else exec (.invalidFrame .surface) s

/-! ### The bus front ends (R167, R168) -/

/-- A byte meets a bus receiver; once a frame is kept, further bytes of the transaction are ignored
(log 14). -/
def State.busByte (b : BusPort) (x : Byte) (kept : Option (List Byte)) (s : State) :
    State × Option (List Byte) :=
  match kept with
  | some f => (s, some f)
  | none =>
    match (s.pi.receivers.get b.port).take x with
    | .more r => (s.setReceiver b.port r, none)
    | .discarded => (s.setReceiver b.port .hunt, none)
    | .valid payload => (s.setReceiver b.port .hunt, some payload)

/-- A transaction or a write ends: an incomplete frame is abandoned, a valid one reaches the slot. -/
def State.endTransfer (b : BusPort) (kept : Option (List Byte)) (s : State) : Result :=
  match kept with
  | some (code :: args) => exec (.answerSlotAccept b code args) s
  | _ => exec (.invalidFrame b.port) s

/-- DCS is asserted: the slot's answer is shifted out from here on. The summary byte of a NOT_READY
frame is taken here, the manual giving it "as it stands when it is sent" (DESIGN CHOICE, log 28). -/
def State.driveSelect (s : State) : State :=
  let out := (s.slotRead .drive).bytes.flatMap spiBits
  { s with pi := { s.pi with
      spi := ⟨true, false, [], false, false, none, out.tail, some (out.headD false)⟩ } }

/-- A whole byte has come in on DMOSI: it meets the receiver, unless the first byte of the transaction was
not A5H. -/
def State.driveByte (mosi : Byte) (s : State) : State :=
  let bus := s.pi.spi
  let ignoring := bus.ignoring || (!bus.started && mosi ≠ 0xA5)
  let (s, kept) := if ignoring then (s, bus.frame) else s.busByte .drive mosi bus.frame
  { s with pi := { s.pi with
      spi := { bus with bits := [], started := true, ignoring := ignoring, frame := kept } } }

/-- A rising edge of DSCK samples one bit of DMOSI; the eighth completes a byte (R167). -/
def State.dsckRise (mosi : Bool) (s : State) : State :=
  let bus := s.pi.spi
  if bus.selected && !bus.dsck then
    let bits := bus.bits ++ [mosi]
    let s := { s with pi := { s.pi with spi := { bus with dsck := true, bits := bits } } }
    if bits.length < 8 then s else s.driveByte (spiByte bits)
  else s

/-- A falling edge of DSCK puts the next bit on DMISO, so that it stands there at the next rising edge;
after the frame the bits are those of 00H (R167; that DMISO changes at this edge is what mode 0 means:
PRESUMED, log 34). -/
def State.dsckFall (s : State) : State :=
  let bus := s.pi.spi
  if bus.selected && bus.dsck then
    { s with pi := { s.pi with
        spi := { bus with dsck := false, out := bus.out.tail, miso := some (bus.out.headD false) } } }
  else s

/-- DCS is released: DMISO is high-impedance, the bits of a byte in assembly are dropped, and the frame kept
reaches the slot. -/
def State.driveRelease (s : State) : Result :=
  let bus := s.pi.spi
  let s := { s with pi := { s.pi with spi := ⟨false, false, [], false, false, none, [], none⟩ } }
  if bus.selected then s.endTransfer .drive bus.frame else .next s

/-- The I2C front end takes a new mode with nothing kept; `ack` acknowledges the address byte. -/
def State.setI2c (mode : I2cMode) (out : List Byte) (ack : Bool) (s : State) : State :=
  { s with pi := { s.pi with i2c := ⟨mode, none, out, none, ack⟩ } }

/-- A write ends at a stop or a repeated start. -/
def State.endHeadWrite (s : State) : Result :=
  if s.pi.i2c.mode = .write then (s.setI2c .idle [] false).endTransfer .head s.pi.i2c.frame
  else .next (s.setI2c .idle [] false)

/-- The transfer that an address byte begins: the part acknowledges its own address (R168), and a read
takes the slot as it stands, the summary byte of a NOT_READY frame with it (DESIGN CHOICE, log 28). -/
def State.headAddressed (address : BitVec 7) (read : Bool) (s : State) : State :=
  if address = s.pi.headAddress then
    if read then s.setI2c .read (s.slotRead .head).bytes true else s.setI2c .write [] true
  else s

/-- A start with its address byte; a repeated start ends the write before it. -/
def State.headStart (address : BitVec 7) (read : Bool) (s : State) : Result :=
  match s.endHeadWrite with
  | .next s => .next (s.headAddressed address read)
  | stop => stop

/-- A byte written to the head port, acknowledged whatever it brings (R168). -/
def State.headWrite (x : Byte) (s : State) : State :=
  if s.pi.i2c.mode = .write then
    let (s, kept) := s.busByte .head x s.pi.i2c.frame
    { s with pi := { s.pi with i2c := { s.pi.i2c with frame := kept, ack := true } } }
  else s

/-- A byte read from the head port, FFH after the frame; its acknowledge is the host's. -/
def State.headRead (s : State) : State :=
  let bus := s.pi.i2c
  if bus.mode = .read then
    { s with pi := { s.pi with
        i2c := { bus with out := bus.out.tail, sda := some (bus.out.headD 0xFF), ack := false } } }
  else s

/-! ### The luma line (R189) -/

/-- The bits of a report: tag in bits 0 to 7, luma in bits 8 to 23. The first bit received is bit 0; the
manual gives no bit order for LRD (DESIGN CHOICE, log 29). -/
def lumaFields (bits : List Bool) : Byte × Half :=
  (BitVec.ofNat 8 (packBits (bits.take 8)), BitVec.ofNat 16 (packBits (bits.drop 8)))

def State.setLrck (level : Bool) (s : State) : State := { s with pins := { s.pins with lrck := level } }

/-- A rising edge of LRCK takes one bit of a report; the 24th completes it. -/
def State.lrckRise (lrd : Bool) (s : State) : Result :=
  if s.pins.lrck then .next s
  else
    let s := s.setLrck true
    let bits := s.sp.bits ++ [lrd]
    let s := { s with sp := { s.sp with lowSince := none } }
    if s.sp.armed then
      if bits.length < 24 then .next { s with sp := { s.sp with bits := bits } }
      else exec (.lumaReport (lumaFields bits).1 (lumaFields bits).2) s
    else .next s

def State.lrckFall (s : State) : State :=
  if s.pins.lrck then
    let s := s.setLrck false
    { s with sp := { s.sp with lowSince := some s.now } }
  else s

/-! ### The filters (R1, R72, R179) -/

/-- The filter of line n meets its pin. -/
def State.sampleLine (n : Fin 4) (s : State) : State :=
  { s with li := { s.li with
      cands := s.li.cands.set n
        (filterSample (s.li.accepted.get n) (s.pins.lines.get n) (s.cfg.lineWidth n) (s.li.cands.get n)) } }

/-- One sample of every filtered pin. -/
def State.samplePins (s : State) : State :=
  let s := { s with
    cu := { s.cu with
      candA := filterSample s.cu.phaseA s.pins.wa s.cfg.glitchWidth s.cu.candA
      candB := filterSample s.cu.phaseB s.pins.wb s.cfg.glitchWidth s.cu.candB }
    ca := { s.ca with tsagCand := filterSample s.ca.sag.isSome s.pins.tsag tsagWidth s.ca.tsagCand } }
  (((s.sampleLine 0).sampleLine 1).sampleLine 2).sampleLine 3

/-- One tick of 0.5 µs passes, with these levels on the pins at its end (LRCK has its edges). -/
def State.tick (p : Pins) (s : State) : State :=
  ({ s with now := s.now + 1, pins := { p with lrck := s.pins.lrck } }).samplePins

/-! ### One signal of the outside -/

/-- A signal meets a running part (log 5). -/
def State.takeWire (w : Wire) (s : State) : Result :=
  match w with
  | .sample p => .next (s.tick p)
  | .surfaceByte b stopBit => s.surfaceByte b stopBit
  | .driveSelect => .next s.driveSelect
  | .dsckRise mosi => .next (s.dsckRise mosi)
  | .dsckFall => .next s.dsckFall
  | .driveRelease => s.driveRelease
  | .headStart address read => s.headStart address read
  | .headWrite b => .next (s.headWrite b)
  | .headRead => .next s.headRead
  | .headStop => s.endHeadWrite
  | .lrckRise lrd => s.lrckRise lrd
  | .lrckFall => .next s.lrckFall

/-- A signal during RESET moves only the pin it stands on (R182). DCS and the I2C bus are held in no pin, so
a transfer that begins during RESET does not go on after its release (DESIGN CHOICE, log 35). -/
def State.holdWire (w : Wire) (s : State) : State :=
  match w with
  | .sample p => { s with pins := { p with lrck := s.pins.lrck } }
  | .lrckRise _ => s.setLrck true
  | .lrckFall => s.setLrck false
  | _ => s

/-! ### What falls due (log 4) -/

/-- A filter holds an accepted change. -/
def ripe (c : Option Candidate) : Bool := c.any Candidate.ripe

/-- A command, when its time has come. -/
def dueIf (due : Bool) (i : Instr) : Option Instr := if due then some i else none

/-- A command whose timer runs to `due`, once that time is reached. -/
def State.dueAt (due : Option Nat) (i : Instr) (s : State) : Option Instr :=
  dueIf (due.any fun t => decide (t ≤ s.now)) i

/-- The accepted pair with the phases that are ripe. -/
def State.dueWheel (s : State) : Option Instr :=
  dueIf (ripe s.cu.candA || ripe s.cu.candB)
    (.wheelFilterAccept (s.cu.phaseA ^^ ripe s.cu.candA) (s.cu.phaseB ^^ ripe s.cu.candB))

def State.dueSag (s : State) : Option Instr :=
  dueIf (ripe s.ca.tsagCand) (if s.ca.sag.isSome then .sagRelease else .sagAssert)

/-- Line n holds an accepted change: an active edge, or a change to the inactive level (R180). -/
def State.dueLine (s : State) (n : Fin 4) : Option Instr :=
  dueIf (ripe (s.li.cands.get n))
    (if s.li.accepted.get n = (s.cfg.lines.get n).polarity.activeLevel then .lineInactiveChange n
      else .lineEdge n)

/-- LRCK has stayed low for 20 µs (R189). -/
def State.dueLow (s : State) : Option Instr :=
  s.dueAt (s.sp.lowSince.map (· + ticksOfUs 20)) .lrckLowPeriod

def State.dueSilence (s : State) : Option Instr := dueIf s.silenceReached .reelSilenceExpiry

def State.dueClaim (s : State) (p : Port) : Option Instr :=
  s.dueAt (match (s.ca.claims.get p).state with
    | .pending due => some due
    | .settled => none) (.claimTimeout p)

/-- The on-steps of a lit channel with off-steps end (R112). -/
def State.duePwmOn (s : State) (c : Fin 4) : Option Instr :=
  let pair := s.ld.activePairs.get c
  if pair.off = 0 ∨ s.ld.outputs.get c = 0 then none
  else s.dueAt (s.ld.pwmStart.map (· + pair.onTicks)) (.pwmOnEnd c)

def State.duePwm (s : State) : Option Instr := s.dueAt (s.ld.pwmStart.map (· + pwmTicks)) .pwmPeriodEnd

/-- The next event of the current frame (R78). -/
def State.dueFrame (s : State) : Option Instr :=
  match s.fs.current with
  | none => none
  | some f =>
    match s.fs.phase with
    | .pre =>
      if s.ld.mode = .strobe ∧ s.fs.windowOpen = false then s.dueAt (some s.fs.strobeAt) .strobeOn
      else s.dueAt (some s.fs.exposeAt) .exposureStart
    | .expose =>
      if f.capture = none then s.dueAt (some s.fs.midpointAt) .midpointCapture
      else s.dueAt (some s.fs.endAt) .exposureEnd
    | _ => none

def State.dueDwell (s : State) : Option Instr := dueIf (!s.ld.dwell && s.dwellReached) .dwellStart

def State.dueSettle (s : State) : Option Instr :=
  s.dueAt (s.hc.seq.bind fun q => match q.settle with
    | .running due => some due
    | _ => none) .settleExpiry

def State.dueHalt (s : State) : Option Instr := s.dueAt (s.hc.seq.bind HaltSeq.haltDue) .haltTimeout

/-- A gap inside a surface frame has passed 5 ms (R164). -/
def State.dueGap (s : State) : Option Instr :=
  if s.pi.receivers.surface = .hunt then none else s.dueAt (some s.pi.gapDue) .surfaceByteGapTimeout

def State.dueSent (s : State) : Option Instr :=
  s.dueAt (s.pi.outQueue.head?.map fun a => s.pi.sendStart + sendTicks s.pi.fastBaud a) .surfaceAnswerSent

/-- The request in flight on a bus port is taken at the end of its 20 µs (log 8). -/
def State.dueSlot (s : State) (b : BusPort) : Option Instr :=
  match s.pi.slot b with
  | .working code args due => s.dueAt (some due) (requestOf b.port code args)
  | _ => none

/-- Everything that has fallen due, in the fixed order of log 4. -/
def State.dueEvents (s : State) : List (Option Instr) :=
  [s.dueWheel, s.dueSag, s.dueLine 0, s.dueLine 1, s.dueLine 2, s.dueLine 3, s.dueLow,
    s.dueAt (some s.cu.clockDue) .runClockTick, s.dueAt (some s.cu.gateDue) .velocityGate, s.dueSilence,
    s.dueClaim .surface, s.dueClaim .drive, s.dueClaim .head] ++
  [s.duePwmOn 0, s.duePwmOn 1, s.duePwmOn 2, s.duePwmOn 3, s.duePwm, s.dueFrame,
    s.dueAt (some s.fs.frameDue) .frameBoundary, s.dueDwell, s.dueSettle, s.dueHalt,
    s.dueAt (s.fs.attitude.map Fresh.due) (.attributeExpiry .attitude),
    s.dueAt (s.fs.pose.map Fresh.due) (.attributeExpiry .pose)] ++
  [s.dueAt s.pi.linkDue .linkTimeout, s.dueGap, s.dueSent, s.dueSlot .drive, s.dueSlot .head]

/-- The first of them. -/
def State.dueEvent (s : State) : Option Instr := s.dueEvents.findSome? id

/-- Nothing is commanded: in a running part one due event is taken, else one signal of the outside,
else one tick passes with the pins as they are; during RESET signals move the pins and no time
passes (log 2, log 5, log 10). -/
def State.idle (s : State) : Result :=
  if s.resetLine then
    match s.inputs with
    | w :: rest => .next (({ s with inputs := rest }).holdWire w)
    | [] => .next s
  else
    match s.dueEvent with
    | some i => exec i s
    | none =>
      match s.inputs with
      | w :: rest => ({ s with inputs := rest }).takeWire w
      | [] => .next (s.tick s.pins)

end Sys2Proof.Machine
end

