-- ==== Sys2Proof/Safety.lean ====
section
/-! DEFINITION. The words in which claims about the machine are stated: when a port can have a request
taken, the state in which a request acts and the one its answer leaves, and the invariants that the
manual states of each block. -/

namespace Sys2Proof.Machine

/-! ### Requests -/

/-- A request of port p is taken when it arrives: RESET is released, and the surface output queue has a
place (R164), or the bus port's slot would accept the request or has it in flight (R166; a command that
finds no request in flight is accepted and taken in one act: DESIGN CHOICE, log 7). -/
def State.accepts (p : Port) (code : Byte) (args : List Byte) (s : State) : Prop :=
  s.resetLine = false ∧
    match p with
    | .surface => s.pi.outQueue.length < 4
    | .drive => ∀ c a due, s.pi.driveSlot = .working c a due → c = code ∧ a = args
    | .head => ∀ c a due, s.pi.headSlot = .working c a due → c = code ∧ a = args

/-- The state in which a request of port p acts: a valid surface frame leaves its receiver in HUNT and is
heard by the link timer first (R163, R165; a commanded surface request is such a frame: DEDUCED, log 25). -/
def State.heard (p : Port) (s : State) : State :=
  match p with
  | .surface => (s.setReceiver .surface .hunt).hearSurface
  | .drive => s
  | .head => s

/-- The state s once port p has its answer: at the tail of the output queue, or held in the slot; the
summary byte is that of s (R170; on the surface port DESIGN CHOICE, log 27). -/
def State.answered (p : Port) (code : Byte) (status : Status) (data : List Byte) (s : State) : State :=
  match p with
  | .surface => s.queueAnswer ⟨code, status, s.summary .surface, data⟩
  | .drive => s.putSlot .drive (.held ⟨code, status, s.summary .drive, data⟩)
  | .head => s.putSlot .head (.held ⟨code, status, s.summary .head, data⟩)

/-- The bytes of a run received one after another on SRXD, each with its stop bit (R164). -/
def State.surfaceBytes : List Byte → State → Result
  | [], s => .next s
  | b :: rest, s =>
    match s.surfaceByte b true with
    | .next t => t.surfaceBytes rest
    | stop => stop

/-- The port, code and arguments of a command that is a request or an unknown request. -/
def asRequest : Instr → Option (Port × Byte × List Byte)
  | .status p a => some (p, 0x01, a)
  | .events p a => some (p, 0x02, a)
  | .configGet p a => some (p, 0x03, a)
  | .configSet p a => some (p, 0x04, a)
  | .restart p a => some (p, 0x05, a)
  | .runStart p a => some (p, 0x10, a)
  | .runEnd p a => some (p, 0x11, a)
  | .zero p a => some (p, 0x12, a)
  | .setChainage p a => some (p, 0x13, a)
  | .reelReport p a => some (p, 0x14, a)
  | .waypointPlace p a => some (p, 0x18, a)
  | .waypointClear p a => some (p, 0x19, a)
  | .waypointRead p a => some (p, 0x1A, a)
  | .claim p a => some (p, 0x20, a)
  | .still p a => some (p, 0x28, a)
  | .halt p a => some (p, 0x29, a)
  | .haltAck p a => some (p, 0x2A, a)
  | .resume p a => some (p, 0x2B, a)
  | .lampMode p a => some (p, 0x30, a)
  | .lampWeights p a => some (p, 0x31, a)
  | .presetWrite p a => some (p, 0x32, a)
  | .presetSelect p a => some (p, 0x33, a)
  | .attitude p a => some (p, 0x38, a)
  | .pose p a => some (p, 0x39, a)
  | .journalNext p a => some (p, 0x40, a)
  | .journalBulk p a => some (p, 0x41, a)
  | .journalSeek p a => some (p, 0x42, a)
  | .journalRewind p a => some (p, 0x43, a)
  | .journalBind p a => some (p, 0x44, a)
  | .journalUnbind p a => some (p, 0x45, a)
  | .journalClear p a => some (p, 0x46, a)
  | .journalMode p a => some (p, 0x47, a)
  | .mark p a => some (p, 0x48, a)
  | .note p a => some (p, 0x49, a)
  | .unknownRequest p code a => some (p, code, a)
  | _ => none

/-- The rights of the table of 10.5 (R171), by request code. -/
def mayIssue (p : Port) (code : Byte) : Bool :=
  match code.toNat with
  | 0x04 | 0x05 | 0x10 | 0x11 | 0x12 | 0x13 | 0x14 | 0x29 | 0x30 | 0x32 | 0x46 | 0x47 | 0x49 => p = .surface
  | 0x31 | 0x33 | 0x48 => p = .surface || p = .head
  | 0x2A | 0x38 => p = .drive
  | 0x39 => p = .head
  | _ => true

/-- Bytes of the fields that the presence mask of a WAYPOINT PLACE marks (12.2). -/
def markedBytes (mask : Byte) : Nat :=
  (mask.getLsbD 0).toNat + 2 * (mask.getLsbD 1).toNat + 4 * (mask.getLsbD 2).toNat + 2 * (mask.getLsbD 3).toNat

/-- The argument lengths of 12.2, the request code not counted (R186), by request code. -/
def lengthAllowed (code : Byte) (args : List Byte) : Bool :=
  match code.toNat with
  | 0x01 | 0x11 | 0x29 | 0x2A | 0x2B | 0x40 | 0x41 | 0x43 | 0x44 | 0x45 | 0x46 => args.length = 0
  | 0x03 | 0x05 | 0x19 | 0x1A | 0x30 | 0x33 | 0x47 => args.length = 1
  | 0x02 | 0x20 | 0x48 => args.length = 2
  | 0x12 | 0x14 | 0x31 | 0x38 | 0x42 => args.length = 4
  | 0x04 | 0x32 | 0x39 => args.length = 5
  | 0x13 => args.length = 6
  | 0x10 => 5 ≤ args.length && args.length ≤ 21
  | 0x18 => 8 ≤ args.length && args.length = 8 + markedBytes (args.getD 1 0)
  | 0x28 => args.length = 0 || args.length = 2
  | 0x49 => args.length ≤ 32
  | _ => true

/-- What a receiver answers to a run of bytes: it stops at the first frame that ends, and a frame that
ends before the last byte is none of them. -/
def Receiver.feed (r : Receiver) : List Byte → Received
  | [] => .more r
  | b :: rest =>
    match r.take b with
    | .more r => r.feed rest
    | done => if rest.isEmpty then done else .discarded

/-! ### Parameters (10.8, 12.2) -/

/-- The range of a parameter by its name code, an enumeration as its codes (10.8, R100). -/
def parameterRange (c : Settings) (code : Nat) : Option (Int × Int) :=
  match code with
  | 0x01 | 0x02 | 0x06 => some (1, 65535)
  | 0x03 => some (100, 10000)
  | 0x04 => some (1, 255)
  | 0x05 => some (1, 4)
  | 0x07 => some (50, 2000)
  | 0x08 => some (0, 255)
  | 0x09 => some (0, 2)
  | 0x0A => some (-100000, 3000000)
  | 0x0B | 0x0D => some (100, 5000)
  | 0x0C | 0x16 => some (0, 1000)
  | 0x0E => some (10000, 100000)
  | 0x0F => some (20, c.framePeriod - 2000)
  | 0x10 => some (64, 960)
  | 0x11 => some (50, 5000)
  | 0x12 => some (max 50 c.dMin, 3000)
  | 0x13 => some (10, min 500 c.dMax)
  | 0x14 => some (256, 4096)
  | 0x15 => some (0, c.dMax)
  | 0x17 => some (10, 1000)
  | 0x18 => some (0, 60000)
  | 0x19 => some (500, 30000)
  | 0x1A => some (0, 2000)
  | 0x20 | 0x21 | 0x22 | 0x23 => some (0, 4)
  | 0x24 | 0x25 | 0x26 | 0x27 => some (0, 1)
  | 0x28 | 0x29 | 0x2A | 0x2B => some (1, 255)
  | _ => none

/-- The parameter that a name code names, as last written (12.2, R177). -/
def parameter (code : Nat) (c : Settings) : Option Int :=
  match code with
  | 0x01 => some c.wheelScale
  | 0x02 => some c.reelScale
  | 0x03 => some c.windowLength
  | 0x04 => some c.toleranceFactor
  | 0x05 => some c.confirmCount
  | 0x06 => some c.reelJumpLimit
  | 0x07 => some c.reelSilenceLimit
  | 0x08 => some c.glitchWidth
  | 0x09 => some c.sourceMode.code
  | 0x0A => some c.zeroOffset
  | 0x0B => some c.tetherAllowance
  | 0x0C => some c.lampFloor
  | 0x0D => some c.claimTimeout
  | 0x0E => some c.framePeriod
  | 0x0F => some c.userExposure
  | 0x10 => some c.lumaTarget
  | 0x11 => some c.blurLimit
  | 0x12 => some c.dMax
  | 0x13 => some c.dMin
  | 0x14 => some c.gMax
  | 0x15 => some c.dwellLevel
  | 0x16 => some c.journalInterval
  | 0x17 => some c.channelMax
  | 0x18 => some c.dwellTime
  | 0x19 => some c.haltTimeout
  | 0x1A => some c.settleTime
  | 0x20 => some c.lines.c0.function.code
  | 0x21 => some c.lines.c1.function.code
  | 0x22 => some c.lines.c2.function.code
  | 0x23 => some c.lines.c3.function.code
  | 0x24 => some c.lines.c0.polarity.code
  | 0x25 => some c.lines.c1.polarity.code
  | 0x26 => some c.lines.c2.polarity.code
  | 0x27 => some c.lines.c3.polarity.code
  | 0x28 => some c.lines.c0.debounce
  | 0x29 => some c.lines.c1.debounce
  | 0x2A => some c.lines.c2.debounce
  | 0x2B => some c.lines.c3.debounce
  | _ => none

/-- Four weights as the four bytes of an item. -/
def fourBytes (w : Four Nat) : List Byte :=
  [BitVec.ofNat 8 w.c0, BitVec.ofNat 8 w.c1, BitVec.ofNat 8 w.c2, BitVec.ofNat 8 w.c3]

/-- The read-only item that a name code names (12.2). -/
def readOnly (code : Nat) (s : State) : Option (List Byte) :=
  if code = 0x30 then some (fourBytes s.ld.pendingWeights)
  else if 0x31 ≤ code ∧ code ≤ 0x34 then some (fourBytes (s.ld.presets.toList.getD (code - 0x31) (.all 0)))
  else if 0x35 ≤ code ∧ code ≤ 0x38 then some (u32 (s.ld.pendingLevels.toList.getD (code - 0x35) 0))
  else if code = 0x39 then some (u32 s.jn.mode.code)
  else none

/-! ### Invariants -/

/-- R59: the grants with the larger of the counted lamp commit and the lamp floor stay within A. -/
def State.budgetHolds (s : State) : Prop :=
  s.ca.granted + max s.ca.commit s.cfg.lampFloor ≤ s.cfg.tetherAllowance

/-- R19, R20, R3, R7, R26: the chainage within its limits, the velocity and the residuals within theirs,
the epoch never 0, eight history values. -/
def Chainage.inRange (c : Chainage) : Prop :=
  (chMin ≤ c.chainage ∧ c.chainage ≤ chMax) ∧ (-32767 ≤ c.velocity ∧ c.velocity ≤ 32767) ∧
  c.wheelResidual.natAbs ≤ 999 ∧ c.cableResidual.natAbs ≤ 999 ∧ c.epoch ≠ 0 ∧ c.history.length = 8

/-- R15, R17: the trusted track is the one that the first matching row of the source mode names, so the
published chainage is HELD exactly while that row names none. -/
def State.trustHolds (s : State) : Prop :=
  s.cu.trusted = trustedTrack s.cfg.sourceMode s.cu.agreement s.cu.wheelFault s.cu.cableLost

/-- R41: the side of an ARMED entry is the one on which the chainage lies; a repeat entry's interval is
not 0. -/
def Slot.sided (chainage : Int) : Slot → Prop
  | .armed e side => side = sideOf chainage e.point ∧ e.interval ≠ some 0
  | _ => True

/-- A slot as a change of the published chainage to c with cause TRACK leaves it: an ARMED entry whose pair
of sides matches its sense stands as its firing leaves it, any other takes its new side (R47). -/
def Slot.crossed (c : Int) : Slot → Slot
  | .armed e side =>
    let now := if c < e.point then Side.below else .above
    if (side = .below ∧ now = .above ∧ e.sense ≠ .falling) ∨
        (side = .above ∧ now = .below ∧ e.sense ≠ .rising) then
      (afterFiring e c).1
    else .armed e now
  | x => x

def State.sidesHold (s : State) : Prop := ∀ i : Fin 16, (s.slot i).sided s.cu.chainage

/-- The sequence numbers of the stored records run from `first` on, one by one. -/
def numberedFrom (first : Nat) : List Record → Prop
  | [] => True
  | r :: rs => r.seq = first ∧ numberedFrom (first + 1) rs

/-- R144, R150, R151, R153: contiguous numbers from base to N − 1, at most 8,192 words, N within its
range, no cursor above N, and a first-drop clock exactly while drops are counted. -/
def Journal.sound (j : Journal) : Prop :=
  j.store.length < j.next ∧ numberedFrom j.base j.store ∧ usedWords j.store ≤ storeWords ∧
  j.next ≤ exhaustedNumber ∧ (∀ p : Port, j.cursors.get p ≤ j.next) ∧
  (j.firstDrop.isSome = true ↔ j.dropCount ≠ 0) ∧ j.dropCount ≤ maxDrops

/-- R61: the pending queue holds each PENDING record's port once, and no other; a PENDING record asks for
more than it holds and a SETTLED one for what it holds (R60). -/
def Arbiter.queueHolds (a : Arbiter) : Prop :=
  a.queue.Nodup ∧
  ∀ p : Port,
    match (a.claims.get p).state with
    | .settled => p ∉ a.queue ∧ (a.claims.get p).requested = (a.claims.get p).granted
    | .pending _ => p ∈ a.queue ∧ (a.claims.get p).granted < (a.claims.get p).requested

/-- R119, R85, R164: the still queue, the in-flight ring and the output queue hold at most four. -/
def State.placesHold (s : State) : Prop :=
  s.sq.length ≤ 4 ∧ s.fs.ring.length ≤ 4 ∧ s.pi.outQueue.length ≤ 4

/-- The records carry consecutive frame numbers, modulo 2^32 (R77, R85). -/
def consecutive : List FrameRecord → Prop
  | f :: g :: rest => g.number = f.number + 1 ∧ consecutive (g :: rest)
  | _ => True

/-- The frame phase is NONE exactly while the ring is empty, the newest record is the current frame's and
the records before it are those of the frames before it, and the strobe window is open only in PRE and
EXPOSE (R77, R78, R85). -/
def FrameSequencer.sound (f : FrameSequencer) : Prop :=
  (f.phase = .none ↔ f.ring = []) ∧ (∀ r, f.ring.getLast? = some r → r.number = f.frameNumber) ∧
  consecutive f.ring ∧
  (f.windowOpen = true → f.phase = .pre ∨ f.phase = .expose)

/-- A halt sequence's timers stand as 7.2 states for its state: the halt timer runs in ASKED and
SETTLING, the settle timer waits or runs in SETTLING, and UNCONFIRMED is set in STANDING of kind HALT
only (R124, R127 to R129). -/
def HaltSeq.timersHold (q : HaltSeq) : Prop :=
  (q.state = .standing ↔ q.haltDue = none) ∧ (q.settle = .stopped ↔ q.state ≠ .settling) ∧
  (q.unconfirmed = true → q.state = .standing ∧ q.kind = .halt) ∧
  (q.stillMark ≠ .none → q.state = .standing ∧ q.kind = .haltStill)

def HaltController.sound (h : HaltController) : Prop := ∀ q, h.seq = some q → q.timersHold

/-- Every setting lies in its range of 10.8 (R176). -/
structure Settings.inRange (c : Settings) : Prop where
  wheelScale : 1 ≤ c.wheelScale ∧ c.wheelScale ≤ 65535
  reelScale : 1 ≤ c.reelScale ∧ c.reelScale ≤ 65535
  windowLength : 100 ≤ c.windowLength ∧ c.windowLength ≤ 10000
  toleranceFactor : 1 ≤ c.toleranceFactor ∧ c.toleranceFactor ≤ 255
  confirmCount : 1 ≤ c.confirmCount ∧ c.confirmCount ≤ 4
  reelJumpLimit : 1 ≤ c.reelJumpLimit ∧ c.reelJumpLimit ≤ 65535
  reelSilenceLimit : 50 ≤ c.reelSilenceLimit ∧ c.reelSilenceLimit ≤ 2000
  glitchWidth : c.glitchWidth ≤ 255
  zeroOffset : chMin ≤ c.zeroOffset ∧ c.zeroOffset ≤ chMax
  tetherAllowance : 100 ≤ c.tetherAllowance ∧ c.tetherAllowance ≤ 5000
  lampFloor : c.lampFloor ≤ 1000
  claimTimeout : 100 ≤ c.claimTimeout ∧ c.claimTimeout ≤ 5000
  framePeriod : 10000 ≤ c.framePeriod ∧ c.framePeriod ≤ 100000
  userExposure : 20 ≤ c.userExposure ∧ c.userExposure ≤ c.framePeriod - 2000
  lumaTarget : 64 ≤ c.lumaTarget ∧ c.lumaTarget ≤ 960
  blurLimit : 50 ≤ c.blurLimit ∧ c.blurLimit ≤ 5000
  dMax : 50 ≤ c.dMax ∧ c.dMax ≤ 3000
  dMin : 10 ≤ c.dMin ∧ c.dMin ≤ 500 ∧ c.dMin ≤ c.dMax
  gMax : 256 ≤ c.gMax ∧ c.gMax ≤ 4096
  dwellLevel : c.dwellLevel ≤ c.dMax
  journalInterval : c.journalInterval ≤ 1000
  channelMax : 10 ≤ c.channelMax ∧ c.channelMax ≤ 1000
  dwellTime : c.dwellTime ≤ 60000
  haltTimeout : 500 ≤ c.haltTimeout ∧ c.haltTimeout ≤ 30000
  settleTime : c.settleTime ≤ 2000
  debounce : ∀ n : Fin 4, 1 ≤ (c.lines.get n).debounce ∧ (c.lines.get n).debounce ≤ 255

end Sys2Proof.Machine
end

