-- ==== Sys2Proof/Certificates/Slice0/Obligations.lean ====
section
/-! DEFINITION. The statements for the provers, one Prop each. A request is stated where its port accepts
it; `heard` is the state in which it acts and `answered` the state that its answer leaves; what these three
fix beyond the rules is the model's choice (log 7, log 25, log 27). -/

open Sys2Proof Sys2Proof.Machine

/-- A step with a command in front of the queue is that command's exec on the rest. -/
def Obligations.StepTakesFrontOfQueue : Prop :=
  ∀ (c : Instr) (rest : List Instr) (s : State),
    step { s with pending := c :: rest } = exec c { s with pending := rest }

/-- Every step, commanded or idle, answers a next state; an idle one takes the first event that has
fallen due. (DESIGN CHOICE, the model's own: log 2, log 4 (the order of what is due together), log
5, log 8 (when a request in flight is taken), log 10, log 15, log 31 (the byte gap); DEDUCED: log
18, log 24; log 35, DESIGN CHOICE: bus signals during RESET leave nothing.) -/
def Obligations.EveryStepAnswersNextState : Prop :=
  (∀ s : State, ∃ t : State, step s = .next t) ∧
  (∀ s : State, s.pending = [] → s.resetLine = false →
    let once : Bool → Instr → Option Instr := fun c i => if c then some i else none
    let past : Nat → Bool := fun time => decide (time ≤ s.now)
    let ripe : Option Candidate → Bool := fun c => c.any Candidate.ripe
    let line : Fin 4 → Option Instr := fun n => once (ripe (s.li.cands.get n))
      (if s.li.accepted.get n = decide ((s.cfg.lines.get n).polarity = .activeHigh)
        then .lineInactiveChange n else .lineEdge n)
    let claim : Port → Option Instr := fun p => once
      (match (s.ca.claims.get p).state with
        | .pending due => past due
        | .settled => false) (.claimTimeout p)
    let lit : Fin 4 → Option Instr := fun c =>
      let pair := s.ld.activePairs.get c
      once (decide (pair.off ≠ 0) && decide (s.ld.outputs.get c ≠ 0) &&
        s.ld.pwmStart.any fun start => past (start + (pair.on * 100 + 1023) / 1024)) (.pwmOnEnd c)
    let frame : (FrameRecord → Bool) → Instr → Option Instr := fun c i => once (s.fs.ring.getLast?.any c) i
    let pre := decide (s.fs.phase = .pre)
    let exposing := decide (s.fs.phase = .expose)
    let strobed := decide (s.ld.mode = .strobe ∧ s.fs.windowOpen = false)
    let at_ : Nat → Bool := fun us => past (s.fs.frameStart + 2 * us)
    let slot : BusPort → Option Instr := fun b =>
      match s.pi.slot b with
      | .working code args due => once (past due) (requestOf b.port code args)
      | _ => none
    let baud := if s.pi.fastBaud then 460800 else 115200
    let events : List (Option Instr) :=
      [once (ripe s.cu.candA || ripe s.cu.candB)
          (.wheelFilterAccept (s.cu.phaseA ^^ ripe s.cu.candA) (s.cu.phaseB ^^ ripe s.cu.candB)),
        once (ripe s.ca.tsagCand) (if s.ca.sag = none then .sagAssert else .sagRelease),
        line 0, line 1, line 2, line 3,
        once (s.sp.lowSince.any fun since => past (since + 40)) .lrckLowPeriod,
        once (past s.cu.clockDue) .runClockTick,
        once (past s.cu.gateDue) .velocityGate,
        once (s.cu.silenceStart.any fun start => decide (2000 * s.cfg.reelSilenceLimit ≤ s.now - start))
          .reelSilenceExpiry,
        claim .surface, claim .drive, claim .head,
        lit 0, lit 1, lit 2, lit 3,
        once (s.ld.pwmStart.any fun start => past (start + 100)) .pwmPeriodEnd,
        frame (fun f => pre && strobed && at_ (s.fs.period - 2000 - f.t - 20)) .strobeOn,
        frame (fun f => pre && !strobed && at_ (s.fs.period - 2000 - f.t)) .exposureStart,
        frame (fun f => exposing && f.capture.isNone && at_ (s.fs.period - 2000 - f.t + f.t / 2))
          .midpointCapture,
        frame (fun f => exposing && f.capture.isSome && at_ (s.fs.period - 2000)) .exposureEnd,
        once (past s.fs.frameDue) .frameBoundary,
        once (!s.ld.dwell && decide (s.cfg.dwellTime ≠ 0) && s.sq.isEmpty &&
          s.ld.standstill.any fun start => decide (s.cfg.dwellTime ≤ (s.now - start) / 2000)) .dwellStart,
        once (s.hc.seq.any fun q => match q.settle with
          | .running due => past due
          | _ => false) .settleExpiry,
        once (s.hc.seq.any fun q => q.haltDue.any past) .haltTimeout,
        once (s.fs.attitude.any fun x => past x.due) (.attributeExpiry .attitude),
        once (s.fs.pose.any fun x => past x.due) (.attributeExpiry .pose),
        once (s.pi.linkDue.any past) .linkTimeout,
        once (decide (s.pi.receivers.surface ≠ .hunt) && past (s.pi.lastByte + 10001)) .surfaceByteGapTimeout,
        once (s.pi.outQueue.head?.any fun a =>
          past (s.pi.sendStart + (a.bytes.length * 10 * 2000000 + (baud - 1)) / baud)) .surfaceAnswerSent,
        slot .drive, slot .head]
    s.dueEvent = events.findSome? id ∧
    ∀ i, events.findSome? id = some i → step s = exec i s) ∧
  (∀ s : State, s.pending = [] → s.resetLine = true →
    (s.inputs = [] → step s = .next s) ∧
    (∀ (w : Wire) (rest : List Wire), s.inputs = w :: rest → step s = .next { s with
      inputs := rest
      pins := match w with
        | .sample p => { p with lrck := s.pins.lrck }
        | .lrckRise _ => { s.pins with lrck := true }
        | .lrckFall => { s.pins with lrck := false }
        | _ => s.pins }))

/-- RESET_ASSERT puts the outputs at rest and holds every command, RESET_RELEASE gives every block
its power-on values. (log 10, log 19, log 24: the model's own choices at the release; log 35, DESIGN
CHOICE: no SPI or I2C transfer outlives RESET.) -/
def Obligations.ResetHoldsThePartAndReleaseGivesPowerOnValues : Prop :=
  (∀ s : State,
    exec .resetAssert s = .next { s with
      resetLine := true
      ld := { s.ld with activeLevels := .all 0, pwmStart := none, outputs := .all 0 }
      sp := { s.sp with ovlBlock := [] }
      pi := { s.pi with
        spi := { s.pi.spi with miso := none }, i2c := { s.pi.i2c with sda := none, ack := false } } } ∧
    exec .resetRelease s = .next {
      now := 0, resetLine := false, pins := s.pins, inputs := s.inputs, pending := s.pending
      cfg :=
        { wheelScale := 300, reelScale := 1000, windowLength := 500, toleranceFactor := 26
          confirmCount := 2, reelJumpLimit := 2000, reelSilenceLimit := 250, glitchWidth := 8
          sourceMode := .blend, zeroOffset := 0, tetherAllowance := 1200, lampFloor := 100
          claimTimeout := 1000, framePeriod := 40000, userExposure := 8000, lumaTarget := 400
          blurLimit := 500, dMax := 2400, dMin := 40, gMax := 2048, dwellLevel := 400
          journalInterval := 0, channelMax := 800, dwellTime := 10000, haltTimeout := 5000
          settleTime := 300
          lines := .all { function := .none, polarity := .activeLow, debounce := 20 } }
      cu :=
        { phaseA := s.pins.wa, phaseB := s.pins.wb, candA := none, candB := none
          wheelTrack := 0, wheelResidual := 0, cableTrack := 0, cableResidual := 0
          reelSeed := none, cableLost := true, silenceStart := none
          illegalCount := 0, wheelFault := false
          window := { wheelMark := 0, cableMark := 0, w := 500, t := 50, k := 2 }
          agreement := .agree, differing := none, trusted := .wheel
          chainage := 0, sat := false, history := [0, 0, 0, 0, 0, 0, 0, 0], velocity := 0
          gateDue := ticksOfMs 25, epoch := 1, runState := .idle, runNumber := 0
          runWheelBase := 0, runCableBase := 0, runClock := 0, clockDue := ticksOfMs 1 }
      wt := Vector.replicate 16 .free
      ca :=
        { claims := .all { granted := 0, requested := 0, state := .settled }, queue := [], commit := 0
          sag := none, tsagCand := if s.pins.tsag then some { age := 0, ripe := false } else none }
      fs :=
        { frameStart := 0, frameDue := ticksOfMs 40, period := 40000, frameNumber := 0, phase := .none
          windowOpen := false, ring := [], reportMark := none, carried := 2400000
          attitude := none, pose := none }
      ld :=
        { writtenMode := .off, mode := .off, pendingWeights := .all 1, weights := .all 1
          presets := .all (.all 1), channelMax := 800, pendingLevels := .all 0, activeLevels := .all 0
          pendingPairs := .all { on := 0, off := 1024, max := 0 }
          activePairs := .all { on := 0, off := 1024, max := 0 }
          pwmStart := none, outputs := .all 0, standstill := some 0, dwell := false, hold := false }
      sq := []
      hc := { seq := none, linkHalt := false }
      jn :=
        { store := [], next := 1, mode := .wrap, dropCount := 0, firstDrop := none, cursors := .all 1
          bound := { surface := true, drive := false, head := false } }
      pi :=
        { receivers := .all .hunt, lastByte := 0, outQueue := [], sendStart := 0
          driveSlot := .empty, headSlot := .empty, latches := .all 0, masks := .all 0x1FF
          linkDue := some (ticksOfMs 2000), fastBaud := s.pins.sbaud
          headAddress := BitVec.ofNat 7 (0x40 + 2 * s.pins.hadr1.toNat + s.pins.hadr0.toNat)
          spi :=
            { selected := false, dsck := false, bits := [], started := false, ignoring := false, frame := none
              out := [], miso := none }
          i2c := { mode := .idle, frame := none, out := [], sda := none, ack := false } }
      li := { accepted := s.pins.lines, cands := .all none }
      sp :=
        { bits := [], armed := false, lowSince := if s.pins.lrck then none else some 0, gainWord := none
          pulses := [], fstartPulses := 0, ovlBlock := [], ovlStart := 0 } }) ∧
  (∀ (i : Instr) (s : State), s.resetLine = true → i ≠ .resetAssert → i ≠ .resetRelease →
    exec i s = .next s ∧ s.dhalt = false ∧ s.datn = false ∧ s.hatn = false ∧ s.xp = false ∧ s.ovl = true ∧
      s.stxd = true)

/-- A valid surface frame restarts the link timer and restores a lost link before its request is
taken. -/
def Obligations.HearingRestoresTheLink : Prop :=
  ∀ s : State,
    (s.heard .drive = s ∧ s.heard .head = s) ∧
    ∃ drive head : BitVec 9,
      s.heard .surface = { s with
        hc := { s.hc with linkHalt := false }
        pi := { s.pi with
          receivers := s.pi.receivers.set .surface .hunt
          linkDue := some (s.now + ticksOfMs 2000)
          latches := ⟨s.pi.latches.surface, drive, head⟩ } } ∧
      (s.hc.linkHalt = false → drive = s.pi.latches.drive ∧ head = s.pi.latches.head) ∧
      (s.hc.linkHalt = true →
        drive = s.pi.latches.drive ||| (if s.hc.seq = none then Event.bit .halt else 0) ||| Event.bit .link ∧
        head = s.pi.latches.head ||| Event.bit .link)

/-- A code that names no request is answered UNKNOWN, a request the port may not issue RIGHTS, and
neither changes anything. -/
def Obligations.UnknownOrForbiddenRequestChangesNothing : Prop :=
  (∀ (i : Instr) (p : Port) (code : Byte) (args : List Byte) (s : State),
    asRequest i = some (p, code, args) → i ≠ .unknownRequest p code args → mayIssue p code = false →
    s.accepts p code args →
    exec i s = .next ((s.heard p).answered p code .rights [])) ∧
  (∀ (p : Port) (code : Byte) (args : List Byte) (s : State),
    code ∉ requestCodes → s.accepts p code args →
    exec (.unknownRequest p code args) s = .next ((s.heard p).answered p code .unknown []))

/-- A permitted request whose payload length is not one that 12.2 gives is refused with LENGTH. -/
def Obligations.WrongLengthIsRefused : Prop :=
  ∀ (i : Instr) (p : Port) (code : Byte) (args : List Byte) (s : State),
    asRequest i = some (p, code, args) → i ≠ .unknownRequest p code args → mayIssue p code = true →
    lengthAllowed code args = false → s.accepts p code args →
    exec i s = .next (if code = 0x14 then s.heard p else (s.heard p).answered p code .length [])

/-- With four answers waiting a surface frame is discarded after it has restarted the link timer. -/
def Obligations.FullOutputQueueDiscardsTheFrame : Prop :=
  (∀ (i : Instr) (code : Byte) (args : List Byte) (s : State),
    asRequest i = some (.surface, code, args) → code ≠ 0x14 → s.resetLine = false →
    4 ≤ s.pi.outQueue.length → exec i s = .next (s.heard .surface)) ∧
  (∀ (args : List Byte) (s : State), ∃ t : State,
    exec (.reelReport .surface args) s = .next t ∧ t.pi.outQueue = s.pi.outQueue ∧
    ∃ u : State, exec (.reelReport .surface args) { s with pi := { s.pi with outQueue := [] } } = .next u ∧
      t = { u with pi := { u.pi with outQueue := s.pi.outQueue } })

/-- ANSWER_SLOT_ACCEPT moves EMPTY and HELD to WORKING and leaves WORKING as it stands. (log 8,
DESIGN CHOICE: WORKING lasts the whole 20 µs; log 25, DEDUCED: the receiver is left in HUNT.) -/
def Obligations.AnswerSlotFollowsItsTable : Prop :=
  (∀ (b : BusPort) (code : Byte) (args : List Byte) (s : State), s.resetLine = false →
    exec (.answerSlotAccept b code args) s = .next
      (let s' := s.setReceiver b.port .hunt
       match s.pi.slot b with
       | .working _ _ _ => s'
       | _ => s'.putSlot b (.working code args (s.now + 40)))) ∧
  (∀ (b : BusPort) (s : State),
    (s.pi.slot b = .empty → s.slotRead b = ⟨0x00, .notReady, s.summary b.port, []⟩) ∧
    (∀ code args due, s.pi.slot b = .working code args due →
      s.slotRead b = ⟨code, .notReady, s.summary b.port, []⟩) ∧
    (∀ a, s.pi.slot b = .held a → s.slotRead b = a))

/-- INVALID_FRAME, the byte gap and the end of an answer act on their own state; STXD carries the
answer being sent bit by bit. (log 3, DESIGN CHOICE: what a commanded expiry does to the clock and
while its timer stands; log 18: the time of sending; log 31, DESIGN CHOICE: the byte gap is counted
from receipt to receipt; log 33, PRESUMED: start bit low, least significant bit first.) -/
def Obligations.SurfaceTimersActOnTheirOwnState : Prop :=
  (∀ s : State, s.resetLine = false →
    (∀ p, exec (.invalidFrame p) s =
      .next { s with pi := { s.pi with receivers := s.pi.receivers.set p .hunt } }) ∧
    (s.pi.receivers.surface = .hunt → exec .surfaceByteGapTimeout s = .next s) ∧
    (s.pi.receivers.surface ≠ .hunt → exec .surfaceByteGapTimeout s = .next { s with
      now := max s.now (s.pi.lastByte + 10001)
      pi := { s.pi with receivers := s.pi.receivers.set .surface .hunt } }) ∧
    (s.pi.outQueue = [] → exec .surfaceAnswerSent s = .next s) ∧
    (∀ a rest, s.pi.outQueue = a :: rest →
      exec .surfaceAnswerSent s = .next (
        let baud := if s.pi.fastBaud then 460800 else 115200
        let sent := s.pi.sendStart + (a.bytes.length * 10 * 2000000 + (baud - 1)) / baud
        { s with now := max s.now sent, pi := { s.pi with outQueue := rest, sendStart := sent } }))) ∧
  (∀ (s : State) (a : Answer) (rest : List Answer) (sent more : List Byte) (b : Byte) (bit : Nat),
    s.resetLine = false → s.pi.outQueue = a :: rest → a.bytes = sent ++ b :: more → s.pi.sendStart ≤ s.now →
    let baud := if s.pi.fastBaud then 460800 else 115200
    let sofar := (s.now - s.pi.sendStart) * baud
    (10 * sent.length + bit) * 2000000 ≤ sofar → sofar < (10 * sent.length + bit + 1) * 2000000 →
    (bit = 0 → s.stxd = false) ∧ (∀ i, i < 8 → bit = i + 1 → s.stxd = b.getLsbD i) ∧
    (bit = 9 → s.stxd = true)) ∧
  (∀ s : State,
    (s.resetLine = true ∨ s.pi.outQueue = [] → s.stxd = true) ∧
    (∀ a rest, s.pi.outQueue = a :: rest →
      10 * a.bytes.length * 2000000 ≤ (s.now - s.pi.sendStart) * (if s.pi.fastBaud then 460800 else 115200) →
      s.stxd = true))

/-- LINK_TIMEOUT sets link halt, asserts DHALT and sets LINK on the drive and head ports. (log 3,
DESIGN CHOICE: what a commanded expiry does to the clock and while its timer stands.) -/
def Obligations.LinkTimeoutSetsLinkHalt : Prop :=
  ∀ s : State, s.resetLine = false →
    (s.pi.linkDue = none → exec .linkTimeout s = .next s) ∧
    (∀ due, s.pi.linkDue = some due → ∃ t : State, exec .linkTimeout s = .next t ∧ t.dhalt = true ∧
      t = { s with
        now := max s.now due
        hc := { s.hc with linkHalt := true }
        pi := { s.pi with
          linkDue := none
          latches := ⟨s.pi.latches.surface,
            s.pi.latches.drive ||| (if s.hc.dhalt then 0 else Event.bit .halt) ||| Event.bit .link,
            s.pi.latches.head ||| Event.bit .link⟩ } })

/-- STATUS answers the 35-byte snapshot of 12.2 and changes nothing. -/
def Obligations.StatusAnswersTheSnapshot : Prop :=
  (∀ (p : Port) (s : State), s.accepts p 0x01 [] → ∃ d : List Byte,
    exec (.status p []) s = .next ((s.heard p).answered p 0x01 .ok d) ∧ d.length = 35 ∧
    (let h := s.heard p
     let slice := fun (from_ n : Nat) => (d.drop from_).take n
     slice 0 4 = s32 h.cu.chainage ∧ slice 4 2 = le16 h.cu.epoch ∧ slice 6 2 = s16 h.cu.velocity ∧
     slice 8 1 = u8 (h.cu.trusted.code + 4 * h.cu.agreement.code + 16 * h.cu.wheelFault.toNat +
       32 * h.cu.cableLost.toNat + 64 * h.cu.sat.toNat + 128 * (decide (h.cu.trusted = .none)).toNat) ∧
     slice 9 1 = u8 h.cu.runState.code ∧ slice 10 2 = le16 h.cu.runNumber ∧
     slice 12 4 = le32 h.cu.runClock ∧
     slice 16 1 = u8 (haltStateCode h.hc.seq +
       4 * (h.hc.seq.any fun q => q.kind = .haltStill).toNat + 8 * (h.hc.seq.any HaltSeq.unconfirmed).toNat +
       16 * h.hc.linkHalt.toNat + 32 * (h.hc.seq.isSome || h.hc.linkHalt).toNat) ∧
     slice 17 1 = u8 (h.ca.claims.get p).state.code ∧
     slice 18 2 = u16 (h.ca.claims.get p).granted ∧ slice 20 2 = u16 (h.ca.claims.get p).requested ∧
     slice 22 4 = u32 (h.jn.next - 1) ∧ slice 26 4 = u32 (h.jn.cursors.get p) ∧
     slice 30 4 = le32 h.fs.frameNumber ∧ slice 34 1 = u8 h.ld.mode.code)) ∧
  ([Source.wheel, .cable, .none].map Source.code = [0, 1, 2] ∧
    [Agreement.agree, .slip, .slack].map Agreement.code = [0, 1, 2] ∧
    [RunState.idle, .survey].map RunState.code = [0, 1] ∧
    [LampMode.off, .strobe, .steady].map LampMode.code = [0, 1, 2] ∧
    haltStateCode none = 0 ∧
    (∀ q, haltStateCode (some q) = match q.state with
      | .asked => 1
      | .settling => 2
      | .standing => 3) ∧
    ClaimState.code .settled = 0 ∧ ∀ due, ClaimState.code (.pending due) = 1)

/-- EVENTS reads and empties the asking port's latch and replaces its mask; DATN, HATN and the
summary byte show the unmasked events. -/
def Obligations.EventsCollectsTheLatch : Prop :=
  (∀ (p : Port) (b0 b1 : Byte) (s : State), s.accepts p 0x02 [b0, b1] →
    ∃ t : State, exec (.events p [b0, b1]) s = .next (t.answered p 0x02 .ok
        (le16 (((s.heard p).pi.latches.get p).zeroExtend 16) ++ le16 (((half b0 b1).truncate 9).zeroExtend 16))) ∧
      t.summary p = 0 ∧ (p = .drive → t.datn = false) ∧ (p = .head → t.hatn = false) ∧
      t = { s.heard p with pi := { (s.heard p).pi with
        latches := (s.heard p).pi.latches.set p 0
        masks := (s.heard p).pi.masks.set p ((half b0 b1).truncate 9) } }) ∧
  (∀ s : State,
    (s.datn = true ↔ s.resetLine = false ∧
      ∃ i : Fin 9, s.pi.latches.drive.getLsbD i = true ∧ s.pi.masks.drive.getLsbD i = true) ∧
    (s.hatn = true ↔ s.resetLine = false ∧
      ∃ i : Fin 9, s.pi.latches.head.getLsbD i = true ∧ s.pi.masks.head.getLsbD i = true) ∧
    (∀ (p : Port) (i : Fin 8), (s.summary p).getLsbD i =
      let shown : Nat → Bool := fun n => (s.pi.latches.get p).getLsbD n && (s.pi.masks.get p).getLsbD n
      if i = 2 then shown 2 || shown 8 else shown i)) ∧
  (Event.bit .grant = 0x001 ∧ Event.bit .expired = 0x002 ∧ Event.bit .halt = 0x004 ∧ Event.bit .reref = 0x008 ∧
  Event.bit .journal = 0x010 ∧ Event.bit .state = 0x020 ∧ Event.bit .sag = 0x040 ∧ Event.bit .restart = 0x080 ∧
  Event.bit .link = 0x100)

/-- CONFIG GET answers the value last written, or the read-only item, and RANGE for any other name.
-/
def Obligations.ConfigGetReadsTheWrittenValue : Prop :=
  ∀ (p : Port) (name : Byte) (s : State), s.accepts p 0x03 [name] →
    exec (.configGet p [name]) s = .next
      (match parameter name.toNat s.cfg with
       | some v => (s.heard p).answered p 0x03 .ok (name :: s32 v)
       | none =>
         match readOnly name.toNat s with
         | some bytes => (s.heard p).answered p 0x03 .ok (name :: bytes)
         | none => (s.heard p).answered p 0x03 .range [])

/-- CONFIG SET refuses an unknown name or a value out of range with RANGE, and one that breaks the
grants with CONFLICT. -/
def Obligations.ConfigSetRefusesRangeAndConflict : Prop :=
  (∀ (name b0 b1 b2 b3 : Byte) (s : State), s.accepts .surface 0x04 [name, b0, b1, b2, b3] →
    (∀ lo hi, parameterRange s.cfg name.toNat = some (lo, hi) →
      (word b0 b1 b2 b3).toInt < lo ∨ hi < (word b0 b1 b2 b3).toInt) →
    exec (.configSet .surface [name, b0, b1, b2, b3]) s =
      .next ((s.heard .surface).answered .surface 0x04 .range [])) ∧
  (∀ (b0 b1 b2 b3 name : Byte) (v a f : Nat) (s : State),
    s.accepts .surface 0x04 [name, b0, b1, b2, b3] → (word b0 b1 b2 b3).toInt = v →
    (name = 0x0B ∧ 100 ≤ v ∧ v ≤ 5000 ∧ a = v ∧ f = s.cfg.lampFloor ∨
      name = 0x0C ∧ v ≤ 1000 ∧ a = s.cfg.tetherAllowance ∧ f = v) →
    (a < s.ca.granted + max s.ca.commit f →
      exec (.configSet .surface [name, b0, b1, b2, b3]) s =
        .next ((s.heard .surface).answered .surface 0x04 .conflict [])) ∧
    (s.ca.granted + max s.ca.commit f ≤ a →
      exec (.configSet .surface [name, b0, b1, b2, b3]) s = .next
        ((State.serve { s.heard .surface with cfg := { s.cfg with tetherAllowance := a, lampFloor := f } }).answered
          .surface 0x04 .ok [name, b0, b1, b2, b3])))

/-- CONFIG SET of any other parameter within its range writes it, lowers a dependent setting, and
answers the value. -/
def Obligations.ConfigSetWritesTheValue : Prop :=
  ∀ (name b0 b1 b2 b3 : Byte) (lo hi : Int) (s : State),
    s.accepts .surface 0x04 [name, b0, b1, b2, b3] → parameterRange s.cfg name.toNat = some (lo, hi) →
    name ≠ 0x0B → name ≠ 0x0C → lo ≤ (word b0 b1 b2 b3).toInt → (word b0 b1 b2 b3).toInt ≤ hi →
    ∃ t : State, exec (.configSet .surface [name, b0, b1, b2, b3]) s =
        .next (t.answered .surface 0x04 .ok [name, b0, b1, b2, b3]) ∧
      parameter name.toNat t.cfg = some (word b0 b1 b2 b3).toInt ∧
      (∀ other : Nat, other ≠ name.toNat → parameter other t.cfg =
        if name = 0x0E ∧ other = 0x0F then
          some (min (s.cfg.userExposure : Int) ((word b0 b1 b2 b3).toInt - 2000))
        else if name = 0x12 ∧ other = 0x15 then some (min (s.cfg.dwellLevel : Int) (word b0 b1 b2 b3).toInt)
        else parameter other s.cfg) ∧
      (let h := s.heard .surface
       let judged : Int → Option Candidate → Option Candidate := fun width c =>
         c.map fun c => { c with ripe := c.ripe && decide (width ≤ c.age) }
       let silent : Bool := h.cu.silenceStart.any (fun start =>
         decide ((word b0 b1 b2 b3).toInt * 2000 ≤ (h.now - start : Nat)))
       (name ≠ 0x07 → t.jn = h.jn ∧ t.pi = h.pi) ∧
       (name ≠ 0x07 → name ≠ 0x08 → name ≠ 0x09 → t.cu = h.cu) ∧
       (name = 0x08 → t.cu = { h.cu with
         candA := judged (word b0 b1 b2 b3).toInt h.cu.candA
         candB := judged (word b0 b1 b2 b3).toInt h.cu.candB }) ∧
       t.li.accepted = h.li.accepted ∧
       (∀ n : Fin 4, t.li.cands.get n =
         if name.toNat = 0x28 + n.val then judged (2000 * (word b0 b1 b2 b3).toInt) (h.li.cands.get n)
         else h.li.cands.get n) ∧
       (name = 0x09 → t.cu = { h.cu with
         trusted := trustedTrack t.cfg.sourceMode h.cu.agreement h.cu.wheelFault h.cu.cableLost }) ∧
       (name = 0x07 → t.cu = if silent then
           { h.cu with
            cableLost := true, silenceStart := none
            trusted := trustedTrack h.cfg.sourceMode h.cu.agreement h.cu.wheelFault true }
         else h.cu) ∧
       (name = 0x07 → t =
         if silent then
           ((({ h with cfg := t.cfg, cu := t.cu } : State).journal (.state ⟨false, false, true, false⟩
             h.cu.agreement h.cu.agreement h.cu.wheelFault true)).setEventAll .state)
         else { h with cfg := t.cfg }) ∧
       t = { h with
         cfg := t.cfg, cu := t.cu
         ld := { h.ld with dwell :=
           if name = 0x18 then
             (if h.ld.dwell then decide ((word b0 b1 b2 b3).toInt ≠ 0)
              else decide ((word b0 b1 b2 b3).toInt ≠ 0) && h.sq.isEmpty &&
                h.ld.standstill.any fun start =>
                  decide ((word b0 b1 b2 b3).toInt ≤ ((h.now - start) / 2000 : Nat)))
           else h.ld.dwell }
         jn := { h.jn with
           store := t.jn.store, next := t.jn.next, dropCount := t.jn.dropCount, firstDrop := t.jn.firstDrop }
         pi := { h.pi with latches := t.pi.latches }
         li := t.li })

/-- ZERO and SET CHAINAGE re-reference the chainage, whole, and answer epoch and chainage. -/
def Obligations.ReReferenceIsTakenWhole : Prop :=
  ∀ (b0 b1 b2 b3 e0 e1 : Byte) (s : State),
    let v := (word b0 b1 b2 b3).toInt
    let h := s.heard .surface
    let c := if v < -100000 then -100000 else if 3000000 < v then 3000000 else v
    let moved : State := { h with
      cu := { h.cu with
        chainage := c, sat := decide (v < -100000 ∨ 3000000 < v)
        epoch := if h.cu.epoch = 0xFFFF then 1 else h.cu.epoch + 1
        history := h.cu.history.map (· + (c - h.cu.chainage)) }
      wt := h.wt.map fun
        | .armed e _ => .armed e (if c < e.point then .below else .above)
        | x => x }
    let data := le16 moved.cu.epoch ++ s32 c
    (s.accepts .surface 0x12 [b0, b1, b2, b3] →
      exec (.zero .surface [b0, b1, b2, b3]) s = .next
        (((moved.journal (.reref .zero h.cu.chainage)).setEventAll .reref).answered .surface 0x12 .ok data)) ∧
    (s.accepts .surface 0x13 [b0, b1, b2, b3, e0, e1] → half e0 e1 = 0 ∨ half e0 e1 = s.cu.epoch →
      exec (.setChainage .surface [b0, b1, b2, b3, e0, e1]) s = .next
        (((moved.journal (.reref .set h.cu.chainage)).setEventAll .reref).answered .surface 0x13 .ok data)) ∧
    (s.accepts .surface 0x13 [b0, b1, b2, b3, e0, e1] → half e0 e1 ≠ 0 → half e0 e1 ≠ s.cu.epoch →
      exec (.setChainage .surface [b0, b1, b2, b3, e0, e1]) s = .next
        (h.answered .surface 0x13 .stale (le16 s.cu.epoch ++ s32 s.cu.chainage)))

/-- RUN END closes an open run with its totals, and is refused with STATE in IDLE. -/
def Obligations.RunEndClosesTheRun : Prop :=
  ∀ s : State, s.accepts .surface 0x11 [] →
    let h := s.heard .surface
    (s.cu.runState = .idle →
      exec (.runEnd .surface []) s = .next (h.answered .surface 0x11 .state [])) ∧
    (s.cu.runState = .survey →
      ∃ t : State, exec (.runEnd .surface []) s = .next
          (t.answered .surface 0x11 .ok (le16 s.cu.runNumber ++ s32 s.cu.chainage)) ∧
        t = { h.journal (.runClose false (h.cu.wheelTrack - h.cu.runWheelBase)
            (h.cu.cableTrack - h.cu.runCableBase)) with cu := { h.cu with runState := .idle } })

/-- RUN START closes an open run, opens a new one, re-references to its start offset and journals in
order. -/
def Obligations.RunStartOpensANewRun : Prop :=
  (∀ (b0 b1 b2 b3 d : Byte) (label : List Byte) (s : State), label.length ≤ 16 →
    s.accepts .surface 0x10 (b0 :: b1 :: b2 :: b3 :: d :: label) →
    let v := (word b0 b1 b2 b3).toInt
    let h := s.heard .surface
    let c := if v < -100000 then -100000 else if 3000000 < v then 3000000 else v
    (1 < d.toNat → exec (.runStart .surface (b0 :: b1 :: b2 :: b3 :: d :: label)) s =
      .next (h.answered .surface 0x10 .range [])) ∧
    (d.toNat ≤ 1 → ∃ t : State,
      exec (.runStart .surface (b0 :: b1 :: b2 :: b3 :: d :: label)) s = .next
        (t.answered .surface 0x10 .ok (le16 t.cu.runNumber ++ le16 t.cu.epoch ++ s32 c)) ∧
      (∀ p, t.pi.latches.get p &&& Event.bit .reref = Event.bit .reref) ∧
      t = { h with
        cu := { h.cu with
          runNumber := if h.cu.runNumber = 0xFFFF then 1 else h.cu.runNumber + 1
          runClock := 0, clockDue := h.now + ticksOfMs 1, runState := .survey
          runWheelBase := h.cu.wheelTrack, runCableBase := h.cu.cableTrack
          window := ⟨h.cu.wheelTrack, h.cu.cableTrack, h.cfg.windowLength,
            h.cfg.windowLength * h.cfg.toleranceFactor / 256, h.cfg.confirmCount⟩
          differing := none
          chainage := c, sat := decide (v < -100000 ∨ 3000000 < v)
          epoch := if h.cu.epoch = 0xFFFF then 1 else h.cu.epoch + 1
          history := h.cu.history.map (· + (c - h.cu.chainage)) }
        wt := h.wt.map fun
          | .armed e _ => .armed e (if c < e.point then .below else .above)
          | x => x
        jn := { h.jn with
          store := t.jn.store, next := t.jn.next, dropCount := t.jn.dropCount, firstDrop := t.jn.firstDrop }
        pi := { h.pi with latches := t.pi.latches } } ∧
      (let closed := if s.cu.runState = .survey then
         h.journal (.runClose true (h.cu.wheelTrack - h.cu.runWheelBase) (h.cu.cableTrack - h.cu.runCableBase))
        else h
       let opened := State.journal (.runOpen (if d = 0 then .withFlow else .againstFlow) label)
         ((State.journal (.reref .runStart h.cu.chainage) { closed with cu := t.cu, wt := t.wt }).setEventAll .reref)
       t.jn = opened.jn ∧ t.pi = opened.pi))) ∧
  (∀ (b0 b1 b2 b3 d : Byte) (label : List Byte) (s : State), label.length ≤ 16 → d.toNat ≤ 1 →
    s.accepts .surface 0x10 (b0 :: b1 :: b2 :: b3 :: d :: label) →
    s.cu.runState = .survey → s.jn.mode = .wrap → s.jn.dropCount = 0 → s.jn.next + 3 ≤ 4294967295 →
    ∃ (t : State) (kept : List Record) (r1 r2 r3 : Record),
      exec (.runStart .surface (b0 :: b1 :: b2 :: b3 :: d :: label)) s = .next t ∧
      t.jn.store = kept ++ [r1, r2, r3] ∧ t.jn.next = s.jn.next + 3 ∧
      r1.seq = s.jn.next ∧ r1.header.runNumber = s.cu.runNumber ∧ r1.header.runClock = s.cu.runClock ∧
      r1.header.chainage = s.cu.chainage ∧
      r1.body = .runClose true (s.cu.wheelTrack - s.cu.runWheelBase) (s.cu.cableTrack - s.cu.runCableBase) ∧
      r2.seq = s.jn.next + 1 ∧ r2.header.runNumber = t.cu.runNumber ∧ r2.header.runClock = 0 ∧
      r2.header.epoch = t.cu.epoch ∧ r2.header.chainage = t.cu.chainage ∧
      r2.body = .reref .runStart s.cu.chainage ∧
      r3.seq = s.jn.next + 2 ∧ r3.header.runNumber = t.cu.runNumber ∧ r3.header.runClock = 0 ∧
      r3.header.epoch = t.cu.epoch ∧
      r3.body = .runOpen (if d = 0 then .withFlow else .againstFlow) label)

/-- A wheel step passes whole mm to the wheel track and, trusted, to the chainage, then crosses the
waypoints and tests the window. -/
def Obligations.WheelStepMovesTrackAndChainage : Prop :=
  ∀ (wa wb : Bool) (s : State), s.resetLine = false → s.cu.wheelResidual.natAbs ≤ 999 →
    let place : Bool → Bool → Nat := fun a b => if a then (if b then 2 else 1) else (if b then 3 else 0)
    let turn := (place wa wb + 4 - place s.cu.phaseA s.cu.phaseB) % 4
    let sum : Int := s.cu.wheelResidual + (if turn = 1 then (s.cfg.wheelScale : Int) else -(s.cfg.wheelScale : Int))
    let mm := sum.tdiv 1000
    let target := s.cu.chainage + mm
    let c := if target < -100000 then -100000 else if 3000000 < target then 3000000 else target
    let advances := decide (s.cu.trusted = .wheel ∧ mm ≠ 0)
    let moved : State := { s with cu := { s.cu with
      phaseA := wa, phaseB := wb
      candA := if wa = s.cu.phaseA then s.cu.candA else none
      candB := if wb = s.cu.phaseB then s.cu.candB else none
      wheelResidual := sum - 1000 * mm, wheelTrack := s.cu.wheelTrack + BitVec.ofInt 32 mm
      chainage := if advances then c else s.cu.chainage
      sat := s.cu.sat || (advances && decide (c ≠ target)) } }
    let crossed := if advances && decide (c ≠ s.cu.chainage) then slotNumbers.foldl (State.crossSlot c) moved
      else moved
    turn = 1 ∨ turn = 3 →
    ∃ t : State, exec (.wheelFilterAccept wa wb) s = .next t ∧
      t = (if mm = 0 then crossed else crossed.testWindow) ∧
      (∀ i : Fin 16, t.slot i = if advances && decide (c ≠ s.cu.chainage) then (s.slot i).crossed c else s.slot i) ∧
      t.cu.phaseA = wa ∧ t.cu.phaseB = wb ∧
      t.cu.wheelResidual = sum - 1000 * mm ∧ t.cu.wheelResidual.natAbs ≤ 999 ∧
      t.cu.wheelTrack = s.cu.wheelTrack + BitVec.ofInt 32 mm ∧
      (s.cu.trusted = .wheel → mm ≠ 0 →
        t.cu.chainage = (if target < -100000 then -100000 else if 3000000 < target then 3000000 else target) ∧
        t.cu.sat = (s.cu.sat || decide (target < -100000 ∨ 3000000 < target))) ∧
      (s.cu.trusted ≠ .wheel ∨ mm = 0 → t.cu.chainage = s.cu.chainage ∧ t.cu.sat = s.cu.sat ∧
        t.wt = s.wt ∧ t.hc = s.hc ∧ t.sq = s.sq ∧ t.ld = s.ld) ∧
      t.cu.cableTrack = s.cu.cableTrack ∧ t.cu.cableResidual = s.cu.cableResidual ∧
      t.cu.reelSeed = s.cu.reelSeed ∧ t.cu.cableLost = s.cu.cableLost ∧
      t.cu.silenceStart = s.cu.silenceStart ∧ t.cu.velocity = s.cu.velocity ∧
      t.cu.history = s.cu.history ∧ t.cu.gateDue = s.cu.gateDue ∧ t.cu.epoch = s.cu.epoch ∧
      t.cu.runState = s.cu.runState ∧ t.cu.runNumber = s.cu.runNumber ∧ t.cu.runClock = s.cu.runClock ∧
      t.cu.runWheelBase = s.cu.runWheelBase ∧ t.cu.runCableBase = s.cu.runCableBase ∧
      t.cu.clockDue = s.cu.clockDue ∧ t.now = s.now ∧ t.cfg = s.cfg ∧ t.ca = s.ca ∧ t.fs = s.fs ∧
      t.li = s.li ∧ t.sp = s.sp ∧ t.pins = s.pins

/-- A pair two places away is counted and moves nothing, and the eighth sets WHEEL_FAULT. -/
def Obligations.IllegalTransitionIsCountedAndFaults : Prop :=
  ∀ s : State, s.resetLine = false →
    exec (.wheelFilterAccept s.cu.phaseA s.cu.phaseB) s = .next s ∧
    (let taken : Chainage := { s.cu with
       phaseA := !s.cu.phaseA, phaseB := !s.cu.phaseB, candA := none, candB := none }
     (s.cu.illegalCount ≠ 7 ∨ s.cu.wheelFault = true →
       exec (.wheelFilterAccept (!s.cu.phaseA) (!s.cu.phaseB)) s =
         .next { s with cu := { taken with illegalCount := min (s.cu.illegalCount + 1) 255 } }) ∧
     (s.cu.illegalCount = 7 → s.cu.wheelFault = false →
       exec (.wheelFilterAccept (!s.cu.phaseA) (!s.cu.phaseB)) s = .next
         ((({ s with cu := { taken with
             illegalCount := 8, wheelFault := true
             trusted := trustedTrack s.cfg.sourceMode s.cu.agreement true s.cu.cableLost } } : State).journal
           (.state ⟨false, true, false, false⟩ s.cu.agreement s.cu.agreement true s.cu.cableLost)).setEventAll
             .state)))

/-- The agreement window closes when a track has moved W, and its class moves the agreement state
after K in a row. -/
def Obligations.WindowCloseFormsItsClass : Prop :=
  ∀ s : State,
    let dw := (s.cu.wheelTrack - s.cu.window.wheelMark).toInt
    let dc := (s.cu.cableTrack - s.cu.window.cableMark).toInt
    let e := (if dw = 0 then dc.sign else dw.sign) * (dw - dc)
    let x : Agreement :=
      if e > s.cu.window.t then .slip else if e < -(s.cu.window.t : Int) then .slack else .agree
    let count := if s.cu.differing.any (fun r => r.1 = x) then (s.cu.differing.map (·.2)).getD 0 + 1 else 1
    let opened : Chainage := { s.cu with
      window := ⟨s.cu.wheelTrack, s.cu.cableTrack, s.cfg.windowLength,
        s.cfg.windowLength * s.cfg.toleranceFactor / 256, s.cfg.confirmCount⟩
      illegalCount := 0
      wheelFault := s.cu.wheelFault && decide (s.cu.illegalCount ≠ 0)
      agreement := if s.cu.cableLost = false ∧ x ≠ s.cu.agreement ∧ s.cu.window.k ≤ count then x
        else s.cu.agreement
      differing := if s.cu.cableLost then s.cu.differing
        else if x = s.cu.agreement ∨ s.cu.window.k ≤ count then none
        else some (x, count) }
    let agreed := decide (opened.agreement = s.cu.agreement)
    let sound := decide (opened.wheelFault = s.cu.wheelFault)
    (dw.natAbs < s.cu.window.w → dc.natAbs < s.cu.window.w → s.testWindow = s) ∧
    (s.cu.window.w ≤ dw.natAbs ∨ s.cu.window.w ≤ dc.natAbs →
      s.testWindow =
        if agreed && sound then { s with cu := opened }
        else (({ s with cu := { opened with
            trusted := trustedTrack s.cfg.sourceMode opened.agreement opened.wheelFault s.cu.cableLost } } :
              State).journal
          (.state ⟨!agreed, !sound, false, false⟩ s.cu.agreement opened.agreement opened.wheelFault
            s.cu.cableLost)).setEventAll .state)

/-- A REEL REPORT seeds an UNSEEDED reel, clears CABLE_LOST, or is discarded as a jump. -/
def Obligations.ReelReportSeedsOrIsAJump : Prop :=
  ∀ (b0 b1 b2 b3 : Byte) (s : State), s.resetLine = false →
    let count := word b0 b1 b2 b3
    let h := s.heard .surface
    let found : State :=
      if s.cu.cableLost then
        (({ h with cu := { h.cu with
            silenceStart := some s.now, cableLost := false
            window := ⟨h.cu.wheelTrack, h.cu.cableTrack, h.cfg.windowLength,
              h.cfg.windowLength * h.cfg.toleranceFactor / 256, h.cfg.confirmCount⟩
            trusted := trustedTrack h.cfg.sourceMode h.cu.agreement h.cu.wheelFault false } } : State).journal
          (.state ⟨false, false, true, false⟩ h.cu.agreement h.cu.agreement h.cu.wheelFault false)).setEventAll
            .state
      else { h with cu := { h.cu with silenceStart := some s.now } }
    let seeded : State := { found with cu := { found.cu with reelSeed := some count } }
    (s.cu.reelSeed = none → exec (.reelReport .surface [b0, b1, b2, b3]) s = .next seeded) ∧
    (∀ last, s.cu.reelSeed = some last → s.cfg.reelJumpLimit < (count - last).toInt.natAbs →
      exec (.reelReport .surface [b0, b1, b2, b3]) s = .next
        ((seeded.journal (.state ⟨false, false, false, true⟩ s.cu.agreement s.cu.agreement s.cu.wheelFault
          false)).setEventAll .state))

/-- A REEL REPORT within the jump limit clears CABLE_LOST, passes whole mm to the cable track and,
trusted, to the chainage, then tests the window. -/
def Obligations.ReelReportAppliesItsDelta : Prop :=
  ∀ (b0 b1 b2 b3 : Byte) (last : Word32) (s : State), s.resetLine = false →
    s.cu.cableResidual.natAbs ≤ 999 → s.cu.reelSeed = some last →
    let count := word b0 b1 b2 b3
    let delta := (count - last).toInt
    let sum := s.cu.cableResidual + delta * s.cfg.reelScale
    let mm := sum.tdiv 1000
    let target := s.cu.chainage + mm
    let c := if target < -100000 then -100000 else if 3000000 < target then 3000000 else target
    let h := s.heard .surface
    let found : State :=
      if s.cu.cableLost then
        (({ h with cu := { h.cu with
            silenceStart := some s.now, cableLost := false
            window := ⟨h.cu.wheelTrack, h.cu.cableTrack, h.cfg.windowLength,
              h.cfg.windowLength * h.cfg.toleranceFactor / 256, h.cfg.confirmCount⟩
            trusted := trustedTrack h.cfg.sourceMode h.cu.agreement h.cu.wheelFault false } } : State).journal
          (.state ⟨false, false, true, false⟩ h.cu.agreement h.cu.agreement h.cu.wheelFault false)).setEventAll
            .state
      else { h with cu := { h.cu with silenceStart := some s.now } }
    let advances := decide (found.cu.trusted = .cable ∧ mm ≠ 0)
    let moved : State := { found with cu := { found.cu with
      reelSeed := some count
      cableResidual := sum - 1000 * mm, cableTrack := s.cu.cableTrack + BitVec.ofInt 32 mm
      chainage := if advances then c else s.cu.chainage
      sat := s.cu.sat || (advances && decide (c ≠ target)) } }
    let crossed := if advances && decide (c ≠ s.cu.chainage) then slotNumbers.foldl (State.crossSlot c) moved
      else moved
    delta.natAbs ≤ s.cfg.reelJumpLimit →
    ∃ t : State, exec (.reelReport .surface [b0, b1, b2, b3]) s = .next t ∧
      t = (if mm = 0 then crossed else crossed.testWindow) ∧
      t.cu.reelSeed = some count ∧ t.cu.silenceStart = some s.now ∧ t.cu.cableLost = false ∧
      t.cu.cableResidual = sum - 1000 * mm ∧ t.cu.cableResidual.natAbs ≤ 999 ∧
      t.cu.cableTrack = s.cu.cableTrack + BitVec.ofInt 32 mm ∧
      (found.cu.trusted = .cable → mm ≠ 0 →
        t.cu.chainage = c ∧ t.cu.sat = (s.cu.sat || decide (target < -100000 ∨ 3000000 < target)) ∧
        (c ≠ s.cu.chainage → ∀ i : Fin 16,
          match s.slot i with
          | .armed e side =>
            let now := if c < e.point then Side.below else .above
            if (side = .below ∧ now = .above ∧ e.sense ≠ .falling) ∨
                (side = .above ∧ now = .below ∧ e.sense ≠ .rising) then
              t.slot i = (afterFiring e c).1
            else t.slot i = .armed e now
          | x => t.slot i = x)) ∧
      (found.cu.trusted ≠ .cable ∨ mm = 0 → t.cu.chainage = s.cu.chainage ∧ t.cu.sat = s.cu.sat ∧
        t.wt = s.wt ∧ t.sq = s.sq ∧ t.ld = s.ld ∧ t.hc = (s.heard .surface).hc) ∧
      t.cu.wheelTrack = s.cu.wheelTrack ∧ t.cu.wheelResidual = s.cu.wheelResidual ∧
      t.cu.velocity = s.cu.velocity ∧ t.cu.history = s.cu.history ∧ t.cu.epoch = s.cu.epoch ∧
      t.cu.runState = s.cu.runState ∧ t.cu.runNumber = s.cu.runNumber ∧ t.cu.runClock = s.cu.runClock ∧
      t.now = s.now ∧ t.cfg = s.cfg ∧ t.ca = s.ca ∧ t.fs = s.fs ∧ t.li = s.li ∧ t.sp = s.sp ∧
      t.pi.outQueue = s.pi.outQueue ∧ t.pi.masks = s.pi.masks

/-- REEL_SILENCE_EXPIRY sets CABLE_LOST and chooses the trusted track, which follows the table of
1.5. (log 3, DESIGN CHOICE: what a commanded expiry does to the clock and while its timer stands.)
-/
def Obligations.SilenceSetsCableLostAndTrustFollowsItsTable : Prop :=
  (∀ s : State, s.resetLine = false →
    (s.cu.silenceStart = none → exec .reelSilenceExpiry s = .next s) ∧
    (∀ start, s.cu.silenceStart = some start →
      exec .reelSilenceExpiry s = .next
        ((({ s with
            now := max s.now (start + 2000 * s.cfg.reelSilenceLimit)
            cu := { s.cu with
              cableLost := true, silenceStart := none
              trusted := trustedTrack s.cfg.sourceMode s.cu.agreement s.cu.wheelFault true } } : State).journal
          (.state ⟨false, false, true, false⟩ s.cu.agreement s.cu.agreement s.cu.wheelFault true)).setEventAll
            .state))) ∧
  (∀ (agreement : Agreement) (wheelFault cableLost : Bool),
    trustedTrack .blend agreement wheelFault cableLost =
      (if (agreement = .agree ∨ agreement = .slack) ∧ wheelFault = false then Source.wheel
       else if cableLost = false then .cable else .none) ∧
    trustedTrack .cable agreement wheelFault cableLost = (if cableLost = false then Source.cable else .none) ∧
    trustedTrack .wheel agreement wheelFault cableLost = (if wheelFault = false then Source.wheel else .none))

/-- VELOCITY_GATE forms the velocity from eight gates ago, moves the history on and feeds the dwell
count; RUN_CLOCK_TICK counts a millisecond. (log 3, DESIGN CHOICE: what a commanded expiry does to
the clock and while its timer stands.) -/
def Obligations.GateGivesTheVelocity : Prop :=
  ∀ s : State, s.resetLine = false →
    (exec .runClockTick s = .next { s with
      now := max s.now s.cu.clockDue
      cu := { s.cu with runClock := s.cu.runClock + 1, clockDue := s.cu.clockDue + 2000 } }) ∧
    (∀ (oldest : Int) (rest : List Int), s.cu.history = oldest :: rest →
      let x := (s.cu.chainage - oldest) * 5
      let v := if x < -32767 then -32767 else if 32767 < x then 32767 else x
      let gated : State := { s with
        now := max s.now s.cu.gateDue
        cu := { s.cu with
          velocity := v, history := rest ++ [s.cu.chainage], gateDue := s.cu.gateDue + 50000 }
        ld := { s.ld with
          dwell := s.ld.dwell && decide (v = 0)
          standstill :=
            if v ≠ 0 then none
            else if s.cu.velocity = 0 then s.ld.standstill
            else if s.hc.seq = none then some (max s.now s.cu.gateDue)
            else none } }
      exec .velocityGate s = .next gated.haltAtGate ∧
      (s.hc.seq = none → gated.haltAtGate = gated))

/-- At a gate the settle timer starts or waits by the velocity, and the first motion of STANDING is
journaled. -/
def Obligations.GateMovesTheHaltSequence : Prop :=
  ∀ (q : HaltSeq) (s : State), s.hc.seq = some q →
    (q.state = .asked → s.haltAtGate = s) ∧
    (q.state = .settling → s.cu.velocity ≠ 0 →
      s.haltAtGate = { s with hc := { s.hc with seq := some { q with settle := .waiting } } }) ∧
    (q.state = .settling → s.cu.velocity = 0 → ∀ due, q.settle = .running due → s.haltAtGate = s) ∧
    (q.state = .settling → s.cu.velocity = 0 → (∀ due, q.settle ≠ .running due) →
      (s.cfg.settleTime ≠ 0 → s.haltAtGate = { s with hc := { s.hc with
        seq := some { q with settle := .running (s.now + 2000 * s.cfg.settleTime) } } }) ∧
      (s.cfg.settleTime = 0 →
        let stood : HaltSeq := { q with
          state := .standing, haltDue := none, settle := .stopped
          stillMark := if q.kind = .haltStill then .queued else .none }
        let t : State :=
          ({ s with hc := { s.hc with seq := some stood } }).journal (.halt .standing q.kind q.origin none)
        s.haltAtGate = if q.kind = .haltStill then t.insertHaltStill false else t)) ∧
    (q.state = .standing → (s.cu.velocity = 0 ∨ q.moved = true) → s.haltAtGate = s) ∧
    (q.state = .standing → s.cu.velocity ≠ 0 → q.moved = false →
      s.haltAtGate =
        ({ s with hc := { s.hc with seq := some { q with moved := true } } }).journal
          (.halt .moved q.kind q.origin none))

/-- WAYPOINT PLACE arms the slot it may take, and refuses with RANGE, OWNER or FULL. -/
def Obligations.WaypointPlaceArmsTheSlot : Prop :=
  ∀ (p : Port) (slot sense action : Byte) (point : Word32) (preset : Option Byte) (code : Option Half)
    (interval : Option Word32) (remaining : Option Half) (unassigned : BitVec 4) (s : State),
    let mask : Byte := unassigned ++ BitVec.ofNat 4
      (preset.isSome.toNat + 2 * code.isSome.toNat + 4 * interval.isSome.toNat + 8 * remaining.isSome.toNat)
    let args : List Byte := slot :: mask :: (le32 point ++ (sense :: action ::
      ((preset.map fun x => [x]).getD [] ++ (code.map le16).getD [] ++ (interval.map le32).getD [] ++
        (remaining.map le16).getD [])))
    let valid : Prop := (slot.toNat < 16 ∨ slot = 0xFF) ∧ -100000 ≤ point.toInt ∧ point.toInt ≤ 3000000 ∧
      sense.toNat ≤ 2 ∧ action.toNat ≤ 4 ∧ (action = 4 → ∃ k, preset = some k ∧ k.toNat ≤ 3) ∧
      (action ≠ 4 → preset = none) ∧
      (∀ i, interval = some i → 10 ≤ i.toNat ∧ i.toNat ≤ 100000 ∧ sense ≠ 2) ∧
      (∀ r, remaining = some r → interval ≠ none ∧ r ≠ 0)
    let h := s.heard p
    let side : Side := if s.cu.chainage < point.toInt then .below else .above
    let mine : Fin 16 → Prop := fun i => ∀ e sd, s.slot i = .armed e sd → p = .surface ∨ e.owner = p
    let open_ : Fin 16 → Prop := fun i => ∀ e sd, s.slot i ≠ .armed e sd
    let armed : Fin 16 → Prop := fun i => ∃ e : Waypoint,
      e.owner = p ∧ e.point = point.toInt ∧ e.sense.code = sense.toNat ∧ e.action.code = action.toNat ∧
      (∀ k, e.action = .preset k → preset = some (BitVec.ofNat 8 k.val)) ∧ e.code = code ∧
      e.interval = interval.map BitVec.toNat ∧ e.remaining = remaining.map BitVec.toNat ∧
      exec (.waypointPlace p args) s = .next
        (({ h with wt := h.wt.set i (.armed e side) } : State).answered p 0x18 .ok
          [BitVec.ofNat 8 i.val, if side = .below then 0 else 1])
    s.accepts p 0x18 args →
    (¬ valid → exec (.waypointPlace p args) s = .next (h.answered p 0x18 .range [])) ∧
    (valid → ∀ i : Fin 16, slot.toNat = i.val → mine i → armed i) ∧
    (valid → ∀ i : Fin 16, slot.toNat = i.val → ¬ mine i →
      exec (.waypointPlace p args) s = .next (h.answered p 0x18 .owner [])) ∧
    (valid → slot = 0xFF → ∀ i, open_ i → (∀ j, j < i → ¬ open_ j) → armed i) ∧
    (valid → slot = 0xFF → (∀ i, ¬ open_ i) →
      exec (.waypointPlace p args) s = .next (h.answered p 0x18 .full []))

/-- WAYPOINT CLEAR frees the slot it may take, and WAYPOINT READ shows the entry and changes
nothing. -/
def Obligations.WaypointClearFreesAndReadShows : Prop :=
  ∀ (p : Port) (n : Byte) (s : State),
    let h := s.heard p
    let optional : Option Half → List Byte := fun x => (x.map le16).getD []
    let entry : Waypoint → List Byte := fun e =>
      let preset : List Byte := match e.action with
        | .preset k => [BitVec.ofNat 8 k.val]
        | _ => []
      [BitVec.ofNat 8 (Port.code e.owner),
        BitVec.ofNat 8 (preset.length + 2 * e.code.isSome.toNat + 4 * e.interval.isSome.toNat +
          8 * e.remaining.isSome.toNat)] ++
      s32 e.point ++ [BitVec.ofNat 8 e.sense.code, BitVec.ofNat 8 e.action.code] ++ preset ++
      optional e.code ++ (e.interval.map u32).getD [] ++ (e.remaining.map u16).getD []
    (16 ≤ n.toNat →
      (s.accepts p 0x19 [n] → exec (.waypointClear p [n]) s = .next (h.answered p 0x19 .range [])) ∧
      (s.accepts p 0x1A [n] → exec (.waypointRead p [n]) s = .next (h.answered p 0x1A .range []))) ∧
    (∀ i : Fin 16, n.toNat = i.val →
      (s.accepts p 0x19 [n] →
        ((∀ e sd, s.slot i = .armed e sd → p = .surface ∨ e.owner = p) →
          exec (.waypointClear p [n]) s = .next
            (({ h with wt := h.wt.set i .free } : State).answered p 0x19 .ok [n])) ∧
        (∀ e sd, s.slot i = .armed e sd → p ≠ .surface → e.owner ≠ p →
          exec (.waypointClear p [n]) s = .next (h.answered p 0x19 .owner []))) ∧
      (s.accepts p 0x1A [n] →
        exec (.waypointRead p [n]) s = .next (h.answered p 0x1A .ok
          (match s.slot i with
           | .free => [0]
           | .armed e sd => [1] ++ entry e ++ [if sd = .below then 0 else 1]
           | .spent e => [2] ++ entry e))))

/-- A firing advances a repeating entry past the chainage or spends it, then performs the entry's
action. -/
def Obligations.FiringAdvancesPastTheChainage : Prop :=
  (∀ (e : Waypoint) (c : Int),
    (e.interval = none → afterFiring e c = (.spent e, 1)) ∧
    (∀ interval : Nat, e.interval = some interval → 1 ≤ interval →
      (e.sense = .rising ∧ e.point ≤ c ∨ e.sense = .falling ∧ c < e.point) →
      let past : Nat → Prop := fun n =>
        if e.sense = .rising then c < e.point + interval * n else e.point - interval * n ≤ c
      ∃ n : Nat, 1 ≤ n ∧ past n ∧ (∀ m, 1 ≤ m → past m → n ≤ m) ∧ (afterFiring e c).2 = n ∧
        let next := if e.sense = .rising then e.point + interval * n else e.point - interval * n
        let remaining := e.remaining.map (· - n)
        (afterFiring e c).1 =
          if remaining = some 0 ∨ next < -100000 ∨ 3000000 < next then .spent { e with remaining := remaining }
          else .armed { e with point := next, remaining := remaining }
            (if e.sense = .rising then .below else .above))) ∧
  (∀ (c : Int) (i : Fin 16) (s : State),
    ((∀ e side, s.slot i ≠ .armed e side) → State.crossSlot c s i = s) ∧
    (∀ e side, s.slot i = .armed e side →
      let now := if c < e.point then Side.below else .above
      let fires : Prop := (side = .below ∧ now = .above ∧ e.sense ≠ .falling) ∨
        (side = .above ∧ now = .below ∧ e.sense ≠ .rising)
      (¬ fires → State.crossSlot c s i = { s with wt := s.wt.set i (.armed e now) }) ∧
      (fires →
        let fired : State := { s with wt := s.wt.set i (afterFiring e c).1 }
        let mark : State → Bool → Bool → State := fun u haltBusy stillDropped =>
          u.journal (.mark (.waypoint i) haltBusy stillDropped (afterFiring e c).2 e.code)
        let queued : State := { fired with sq := s.sq ++ [⟨.waypoint i, e.code, false⟩] }
        let started : HaltKind → State := fun kind =>
          let asked : State := { fired with
            hc := ⟨some ⟨.asked, kind, .waypoint i e.owner, false, false, .none,
              some (s.now + 2000 * s.cfg.haltTimeout), .stopped⟩, s.hc.linkHalt⟩
            ld := { s.ld with standstill := none, dwell := false } }
          (if s.hc.linkHalt then asked else asked.setEvent .drive .halt).journal
            (.halt .asked kind (.waypoint i e.owner) none)
        (e.action = .mark → State.crossSlot c s i = mark fired false false) ∧
        (e.action = .still → State.crossSlot c s i = if s.sq.length < 4 then queued else mark fired false true) ∧
        (e.action = .halt → State.crossSlot c s i = if s.hc.seq = none then started .halt else mark fired true false) ∧
        (e.action = .haltStill → State.crossSlot c s i =
          if s.hc.seq = none then started .haltStill
          else if s.sq.length < 4 then mark queued true false else mark fired true true) ∧
        (∀ k, e.action = .preset k → State.crossSlot c s i =
          { fired with ld := { s.ld with pendingWeights := s.ld.presets.get k } }))))

/-- A CLAIM of more than A − F is refused with RANGE and leaves record, timer and place unchanged.
-/
def Obligations.ClaimAboveAMinusFIsRefused : Prop :=
  ∀ (p : Port) (b0 b1 : Byte) (s : State), s.accepts p 0x20 [b0, b1] →
    ((half b0 b1).toNat : Int) > (s.cfg.tetherAllowance : Int) - s.cfg.lampFloor →
    exec (.claim p [b0, b1]) s = .next ((s.heard p).answered p 0x20 .range
      (let r := s.ca.claims.get p
       u16 r.granted ++ u16 r.requested ++ [if r.state = .settled then 0 else 1]))

/-- A CLAIM within A − F is taken as a decrease, granted at once, or deferred at its place in the
queue. -/
def Obligations.ClaimIsTakenGrantedOrDeferred : Prop :=
  ∀ (p : Port) (b0 b1 : Byte) (s : State), s.accepts p 0x20 [b0, b1] →
    let x := (half b0 b1).toNat
    let h := s.heard p
    let r := s.ca.claims.get p
    let free : Int := (s.cfg.tetherAllowance : Int) - s.ca.granted - max s.ca.commit s.cfg.lampFloor
    let atOnce : Prop := s.ca.sag = none ∧ s.ca.queue = [] ∧ ((x - r.granted : Nat) : Int) ≤ free
    let due := s.now + 2000 * s.cfg.claimTimeout
    x + s.cfg.lampFloor ≤ s.cfg.tetherAllowance →
    (x ≤ r.granted →
      exec (.claim p [b0, b1]) s = .next
        ((State.serve { h with ca := { h.ca with
            claims := h.ca.claims.set p ⟨x, x, .settled⟩
            queue := h.ca.queue.filter (· ≠ p) } }).answered p 0x20 .ok (u16 x ++ u16 x ++ [0]))) ∧
    (r.granted < x → atOnce →
      exec (.claim p [b0, b1]) s = .next
        (({ h with ca := { h.ca with claims := h.ca.claims.set p ⟨x, x, .settled⟩ } } : State).answered
          p 0x20 .ok (u16 x ++ u16 x ++ [0]))) ∧
    (r.granted < x → ¬ atOnce →
      exec (.claim p [b0, b1]) s = .next
        (({ h with ca := { h.ca with
            claims := h.ca.claims.set p ⟨r.granted, x, .pending due⟩
            queue := if r.state = .settled then h.ca.queue ++ [p] else h.ca.queue } } : State).answered
          p 0x20 .pending (u16 r.granted ++ u16 x ++ [1])))

/-- Serving grants the head of the queue while its need fits, and CLAIM_TIMEOUT settles a record at
its old grant. (log 3, DESIGN CHOICE: what a commanded expiry does to the clock and while its timer
stands.) -/
def Obligations.ServingGrantsFromTheHeadAndTimeoutSettles : Prop :=
  (∀ s : State,
    (s.ca.sag ≠ none ∨ s.ca.queue = [] → s.serve = s) ∧
    (∀ p rest, s.ca.sag = none → s.ca.queue = p :: rest →
      let r := s.ca.claims.get p
      let free : Int := (s.cfg.tetherAllowance : Int) - s.ca.granted - max s.ca.commit s.cfg.lampFloor
      (free < ((r.requested - r.granted : Nat) : Int) → s.serve = s) ∧
      (((r.requested - r.granted : Nat) : Int) ≤ free →
        s.serve = State.serve (State.setEvent p .grant { s with ca := { s.ca with
          claims := s.ca.claims.set p ⟨r.requested, r.requested, .settled⟩, queue := rest } })))) ∧
  (∀ (p : Port) (s : State), s.resetLine = false →
    ((s.ca.claims.get p).state = .settled → exec (.claimTimeout p) s = .next s) ∧
    (∀ due, (s.ca.claims.get p).state = .pending due →
      exec (.claimTimeout p) s = .next (State.setEvent p .expired { s with
        now := max s.now due
        ca := { s.ca with
          claims := s.ca.claims.set p ⟨(s.ca.claims.get p).granted, (s.ca.claims.get p).granted, .settled⟩
          queue := s.ca.queue.filter (· ≠ p) } })))

/-- SAG_ASSERT cuts the lamps and the counted commit, SAG_RELEASE journals the duration and serves
the queue. (log 11, DEDUCED: an assert while asserted and a release while clear; log 9, DESIGN
CHOICE: the duration of a sag of 2^32 ms or more is a free value; log 32, DESIGN CHOICE: the active
PWM pairs stand through a sag.) -/
def Obligations.SagCutsTheLampsAndItsReleaseServes : Prop :=
  ∀ s : State, s.resetLine = false →
    (s.ca.sag ≠ none → exec .sagAssert s = .next s) ∧
    (s.ca.sag = none → exec .sagRelease s = .next s) ∧
    (s.ca.sag = none →
      let cut : State := { s with
        ca := { s.ca with sag := some s.now, commit := 0, tsagCand := none }
        ld := { s.ld with activeLevels := .all 0, pwmStart := none, outputs := .all 0, hold := true } }
      (s.fs.windowOpen = false →
        exec .sagAssert s = .next ((cut.journal (.sag none)).setEventAll .sag)) ∧
      (∀ (older : List FrameRecord) (f : FrameRecord), s.fs.windowOpen = true → s.fs.phase ≠ .none →
        s.fs.ring = older ++ [f] →
        exec .sagAssert s = .next ((({ cut with fs := { s.fs with
          ring := older ++ [{ f with flags := { f.flags with shed := true } }] } } : State).journal
            (.sag none)).setEventAll .sag))) ∧
    (∀ start, s.ca.sag = some start → ∃ d : Word32,
      ((s.now - start) / 2000 < 4294967296 → d = BitVec.ofNat 32 ((s.now - start) / 2000)) ∧
      exec .sagRelease s = .next
        (State.serve ((({ s with ca := { s.ca with sag := none, tsagCand := none } } : State).journal
          (.sag (some d))).setEventAll .sag)))

/-- FRAME_BOUNDARY starts the next frame, drives the sensor and the lamps, and hands in the lamp
commit. (log 3, DESIGN CHOICE: what a commanded expiry does to the clock and while its timer stands;
log 13: strobe on and exposure start at the boundary itself; log 19: the pairs outside STEADY; log
32, DESIGN CHOICE: the active pairs under a hold.) -/
def Obligations.BoundaryStartsTheNextFrame : Prop :=
  (∀ s : State, s.resetLine = false →
    let need : Claim → Nat := fun r => if r.state = .settled then 0 else r.requested - r.granted
    let claims := s.ca.claims
    let report := usableReport s.fs.reportMark s.fs.ring
    let a : Allocation :=
      { cfg := s.cfg, mode := s.ld.writtenMode
        report := report.bind fun r => r.luma.map fun m => (m, r.pd)
        carried := s.fs.carried, velocity := s.cu.velocity
        allowance := max s.cfg.lampFloor (s.cfg.tetherAllowance -
          (claims.surface.granted + claims.drive.granted + claims.head.granted +
            (need claims.surface + need claims.drive + need claims.head)))
        weights := s.ld.pendingWeights, channelMax := s.cfg.channelMax
        dwell := s.ld.dwell, still := s.sq.head?.isSome }
    let previous : LampMode := if s.fs.phase = .none then .off else s.ld.mode
    ∃ (t : State) (f : FrameRecord), exec .frameBoundary s = .next t ∧
      t.now = max s.now s.fs.frameDue ∧ t.fs.frameStart = s.fs.frameDue ∧
      t.fs.frameDue = s.fs.frameDue + 2 * s.cfg.framePeriod ∧ t.fs.period = s.cfg.framePeriod ∧
      t.fs.frameNumber = s.fs.frameNumber + 1 ∧
      t.fs.ring = (if 4 ≤ s.fs.ring.length then s.fs.ring.tail else s.fs.ring) ++ [f] ∧
      f.number = s.fs.frameNumber + 1 ∧ f.still = s.sq.head? ∧ f.luma = none ∧ f.capture = none ∧
      f.d = f.levels.c0 + f.levels.c1 + f.levels.c2 + f.levels.c3 ∧ f.flags.dwell = s.ld.dwell ∧
      f.t = a.run.t ∧ f.g = a.run.g ∧ f.pd = a.run.pd ∧ f.levels = a.run.levels ∧ f.d = a.run.d ∧
      f.flags.still = s.sq.head?.isSome ∧ f.flags.statsLate = report.isNone ∧
      f.flags.overlit = a.run.overlit ∧ f.flags.underlit = a.run.underlit ∧
      f.flags.held = false ∧ f.flags.sat = false ∧ f.flags.moving = false ∧
      t.fs.windowOpen = (match s.ld.writtenMode with
        | .off => false
        | .strobe => decide (s.cfg.framePeriod ≤ f.t + 2020)
        | .steady => decide (s.cfg.framePeriod ≤ f.t + 2000)) ∧
      f.flags.shed = (t.fs.windowOpen && t.ld.hold) ∧
      t.fs.reportMark = (match report with
        | some r => some r.number
        | none => s.fs.reportMark) ∧
      t.fs.carried = f.pd ∧ t.sq = s.sq.tail ∧
      t.fs.phase = (if s.cfg.framePeriod ≤ f.t + 2000 then .expose else .pre) ∧
      t.sp = { s.sp with
        gainWord := some ⟨f.g, f.number.truncate 8⟩
        pulses := (List.range 24).map (fun i =>
          SensorPulse.gwck (if i < 16 then f.g.testBit i else f.number.getLsbD (i - 16))) ++ [.fstart]
        fstartPulses := s.sp.fstartPulses + 1 } ∧
      t.ld.mode = s.ld.writtenMode ∧ t.ld.writtenMode = s.ld.writtenMode ∧
      t.ld.weights = s.ld.pendingWeights ∧ t.ld.pendingWeights = s.ld.pendingWeights ∧
      t.ld.presets = s.ld.presets ∧ t.ld.channelMax = s.cfg.channelMax ∧ t.ld.pendingLevels = f.levels ∧
      t.ld.hold = (s.ld.hold && s.ca.sag.isSome) ∧
      (s.ld.writtenMode = .off → t.ld.activeLevels = .all 0 ∧ t.ld.outputs = .all 0 ∧ t.ld.pwmStart = none) ∧
      (s.ld.writtenMode = .strobe →
        let lit := if t.fs.windowOpen && !t.ld.hold then f.levels else .all 0
        t.ld.activeLevels = lit ∧ t.ld.outputs = lit ∧ t.ld.pwmStart = none) ∧
      (s.ld.writtenMode ≠ .steady →
        t.ld.pendingPairs = s.ld.pendingPairs ∧ t.ld.activePairs = s.ld.activePairs) ∧
      (s.ld.writtenMode = .steady →
        t.ld.pendingPairs = f.levels.map (fun level =>
          ⟨1024 * level / s.cfg.channelMax, 1024 - 1024 * level / s.cfg.channelMax, s.cfg.channelMax⟩) ∧
        (t.ld.hold = true → t.ld.activeLevels = .all 0 ∧ t.ld.outputs = .all 0 ∧ t.ld.pwmStart = none ∧
          t.ld.activePairs = s.ld.activePairs) ∧
        (t.ld.hold = false → previous ≠ .steady ∨ s.ld.hold = true →
          t.ld.activePairs = t.ld.pendingPairs ∧ t.ld.activeLevels = f.levels ∧
          t.ld.pwmStart = some s.fs.frameDue ∧
          t.ld.outputs = t.ld.pendingPairs.map fun q => if q.on = 0 then 0 else q.max) ∧
        (t.ld.hold = false → previous = .steady → s.ld.hold = false →
          t.ld.activePairs = s.ld.activePairs ∧ t.ld.activeLevels = s.ld.activeLevels ∧
          t.ld.pwmStart = s.ld.pwmStart ∧ t.ld.outputs = s.ld.outputs)) ∧
      t.ld.dwell = (s.ld.dwell && s.sq.isEmpty) ∧
      t.ld.standstill = (if s.sq = [] then s.ld.standstill
        else if s.cu.velocity = 0 ∧ s.hc.seq = none then some t.now else none) ∧
      t.hc = { s.hc with seq := s.hc.seq.map fun q =>
        if (s.sq.head?.any fun e => e.source = .halt) ∧ q.stillMark = .queued then { q with stillMark := .taken }
        else q } ∧
      (s.ca.sag = none →
        let commit := match s.ld.writtenMode with
          | .off => 0
          | .steady => f.d
          | .strobe => (f.d * (f.t + 20) + (s.cfg.framePeriod - 1)) / s.cfg.framePeriod
        let served := State.serve { s with ca := { s.ca with commit := commit } }
        t.ca.commit = commit ∧ t.ca = served.ca ∧ t.pi = served.pi) ∧
      (s.ca.sag ≠ none → t.ca = { s.ca with commit := 0 } ∧ t.pi = s.pi) ∧
      t.cu = s.cu ∧ t.wt = s.wt ∧ t.jn = s.jn ∧ t.li = s.li ∧ t.cfg = s.cfg ∧
      t.fs.attitude = s.fs.attitude ∧ t.fs.pose = s.fs.pose ∧ t.hc.dhalt = s.hc.dhalt) ∧
  (∀ (mark : Option Word32) (ring : List FrameRecord), (ring.map FrameRecord.number).Nodup →
    let usable : FrameRecord → Prop := fun r => r.luma ≠ none ∧ r.flags.shed = false
    (∀ (older newer : List FrameRecord) (f : FrameRecord), ring = older ++ f :: newer → usable f →
      (∀ r ∈ newer, ¬ usable r) → (∀ r ∈ f :: newer, mark ≠ some r.number) → usableReport mark ring = some f) ∧
    ((∀ (older newer : List FrameRecord) (f : FrameRecord), ring = older ++ f :: newer → usable f →
      ∃ r ∈ f :: newer, mark = some r.number) → usableReport mark ring = none))

/-- Every allocation follows the nine steps of 5.5 and the distribution of 6.4, and keeps its
figures within their bounds. -/
def Obligations.AllocationStaysInItsBounds : Prop :=
  ∀ a : Allocation, a.cfg.inRange → 1 ≤ a.channelMax →
    20 ≤ a.run.t ∧ a.run.t ≤ a.cfg.framePeriod - 2000 ∧ 256 ≤ a.run.g ∧ a.run.g ≤ a.cfg.gMax ∧
    (∀ c : Fin 4, a.run.levels.get c ≤ a.channelMax) ∧ a.run.d = a.run.levels.sum ∧ a.run.d ≤ a.cfg.dMax ∧
    a.run.commit ≤ a.allowance ∧
    (∀ c : Fin 4, a.weights.get c = 0 → a.weights.sum ≠ 0 → a.run.levels.get c = 0) ∧
    (let off := decide (a.mode = .off)
     let raw := match a.report with
       | some (m, pm) => max (pm / 2) (min (2 * pm) (pm * a.cfg.lumaTarget / max m 1))
       | none => a.carried
     let least := a.cfg.dMin * 20
     let most := a.cfg.dMax * a.cfg.userExposure * a.cfg.gMax / 256
     let p := max least (min most raw)
     let tCap := max 20 (min a.cfg.userExposure (min (a.cfg.framePeriod - 2000)
       (if a.velocity = 0 then a.cfg.userExposure else a.cfg.blurLimit * 1000 / a.velocity.natAbs)))
     let offered := min a.cfg.dMax (if a.mode = .strobe then a.allowance * a.cfg.framePeriod / (tCap + 20)
       else a.allowance)
     let dCap := if a.dwell && !a.still then min offered a.cfg.dwellLevel else offered
     let nominal := if off then 1000 else a.cfg.dMin
     let bright := decide (p < nominal * tCap)
     let t := if bright then max 20 (p / nominal) else tCap
     let d := min dCap (if bright then a.cfg.dMin else max a.cfg.dMin ((p + (t - 1)) / t))
     let w : Four Nat := if a.weights.sum = 0 then .all 1 else a.weights
     let share : Fin 4 → Nat := fun c => d * w.get c / w.sum
     let light := if off then 1000 else a.run.d
     let short := decide (light ≠ 0) && !(bright && decide (light = nominal)) && decide (light * t < p)
     a.run.t = t ∧
     (off = true → a.run.levels = .all 0) ∧
     (off = false → ∃ top : Fin 4, (∀ c, w.get c ≤ w.get top) ∧ (∀ c, c < top → w.get c < w.get top) ∧
       ∀ c, a.run.levels.get c = min a.channelMax
         (share c + if c = top then d - (share 0 + share 1 + share 2 + share 3) else 0)) ∧
     a.run.g = (if light = 0 then a.cfg.gMax
       else if short then min a.cfg.gMax ((p * 256 + (light * t - 1)) / (light * t)) else 256) ∧
     a.run.pd = light * t * a.run.g / 256 ∧
     a.run.commit = (match a.mode with
       | .off => 0
       | .steady => a.run.d
       | .strobe => (a.run.d * (t + 20) + (a.cfg.framePeriod - 1)) / a.cfg.framePeriod) ∧
     a.run.statsLate = a.report.isNone ∧ a.run.overlit = decide (raw < least) ∧
     a.run.underlit = (decide (most < raw) || decide (light = 0) ||
       (short && decide (a.run.g = a.cfg.gMax) && decide (light * t * a.cfg.gMax / 256 < p))))

/-- STROBE_ON lights the channels, EXPOSURE_START raises XP, MIDPOINT_CAPTURE takes the capture
once. (log 3, DESIGN CHOICE: what a commanded expiry does to the clock and while its timer stands.)
-/
def Obligations.StrobeAndExposureFollowTheFrame : Prop :=
  ∀ s : State, s.resetLine = false →
    (s.fs.phase ≠ .pre ∨ s.fs.windowOpen = true → exec .strobeOn s = .next s) ∧
    (s.fs.phase ≠ .pre → exec .exposureStart s = .next s) ∧
    (s.fs.phase ≠ .expose → exec .midpointCapture s = .next s) ∧
    (∀ (older : List FrameRecord) (f : FrameRecord), s.fs.ring = older ++ [f] →
      let shedRing := older ++ [{ f with flags := { f.flags with shed := true } }]
      (s.fs.phase = .pre → s.fs.windowOpen = false →
        let now := max s.now (s.fs.frameStart + 2 * (s.fs.period - 2000 - f.t - 20))
        (s.ld.mode = .strobe → s.ld.hold = false →
          exec .strobeOn s = .next { s with
            now := now, fs := { s.fs with windowOpen := true }
            ld := { s.ld with activeLevels := s.ld.pendingLevels, outputs := s.ld.pendingLevels } }) ∧
        (s.ld.mode = .strobe → s.ld.hold = true →
          exec .strobeOn s =
            .next { s with now := now, fs := { s.fs with windowOpen := true, ring := shedRing } }) ∧
        (s.ld.mode ≠ .strobe → exec .strobeOn s = .next { s with now := now })) ∧
      (s.fs.phase = .pre →
        let now := max s.now (s.fs.frameStart + 2 * (s.fs.period - 2000 - f.t))
        exec .exposureStart s = .next { s with
          now := now
          fs := { s.fs with
            phase := .expose
            windowOpen := s.fs.windowOpen || decide (s.ld.mode = .steady)
            ring := if s.ld.mode = .steady ∧ s.ld.hold = true then shedRing else s.fs.ring } }) ∧
      (s.fs.phase = .expose → f.capture ≠ none → exec .midpointCapture s = .next s) ∧
      (s.fs.phase = .expose → f.capture = none →
        let c : Capture := ⟨⟨s.cu.chainage, s.cu.epoch, s.cu.trusted, decide (s.cu.trusted = .none),
          s.cu.agreement, s.cu.wheelFault, s.cu.cableLost, s.cu.sat, s.cu.velocity, s.cu.runNumber,
          s.cu.runState, s.cu.runClock⟩, s.fs.attitude.map Fresh.value, s.fs.pose.map Fresh.value⟩
        exec .midpointCapture s = .next { s with
          now := max s.now (s.fs.frameStart + 2 * (s.fs.period - 2000 - f.t + f.t / 2))
          fs := { s.fs with ring := older ++ [{ f with
            capture := some c
            flags := { f.flags with
              held := decide (s.cu.trusted = .none), sat := s.cu.sat
              moving := f.still.any fun e => decide (s.cu.velocity ≠ 0) || e.moving } }] } }))

/-- EXPOSURE_END sends the stamp block on OVL, hands the journal at most one record and reports a
halt still. (log 3, DESIGN CHOICE: what a commanded expiry does to the clock and while its timer
stands; log 12, DESIGN CHOICE: an exposure end without a capture.) -/
def Obligations.ExposureEndSendsStampAndRecord : Prop :=
  (∀ s : State, s.resetLine = false →
    (s.fs.phase ≠ .expose → exec .exposureEnd s = .next s) ∧
    (∀ (older : List FrameRecord) (f : FrameRecord), s.fs.phase = .expose → s.fs.ring = older ++ [f] →
      let now := max s.now (s.fs.frameStart + 2 * (s.fs.period - 2000))
      let ended : State := { s with
        now := now
        fs := { s.fs with phase := .guard, windowOpen := false }
        ld := if s.ld.mode = .strobe then
            { s.ld with activeLevels := .all 0, pwmStart := none, outputs := .all 0 }
          else s.ld }
      let kept : State := match f.capture with
        | none => ended
        | some c =>
          let sent : State := { ended with sp := { s.sp with ovlBlock := f.stampBlock c, ovlStart := now } }
          let body : FrameBody := ⟨f.number, f.t, f.d, f.g, f.flags, c.attitude, c.pose⟩
          let header : Header := ⟨c.published.runNumber, c.published.runClock, c.published.chainage,
            c.published.epoch, c.published.source, c.published.agreement, c.published.wheelFault,
            c.published.cableLost, c.published.sat, c.published.held, true⟩
          match f.still with
          | some e => (sent.handRecord header (.still e.source e.code body)).1
          | none =>
            if s.cfg.journalInterval ≠ 0 ∧ f.number.toNat % s.cfg.journalInterval = 0 then
              (sent.handRecord header (.frame body)).1
            else sent
      let own : HaltSeq → Prop := fun q => q.kind = .haltStill ∧ q.state = .standing ∧ q.stillMark = .taken
      ((∀ e, f.still = some e → e.source ≠ .halt) ∨ (∀ q, s.hc.seq = some q → ¬ own q) →
        exec .exposureEnd s = .next kept) ∧
      (∀ e q, f.still = some e → e.source = .halt → s.hc.seq = some q → own q →
        exec .exposureEnd s = .next
          (State.journal (.halt .done q.kind q.origin none)
            (let idle : State := { kept with
              hc := { s.hc with seq := none }
              ld := { kept.ld with standstill := if s.cu.velocity = 0 then some now else none } }
             if s.hc.linkHalt then idle else idle.setEvent .drive .halt))))) ∧
  (∀ (s : State) (sent rest : List Byte) (b : Byte) (bit : Nat), s.resetLine = false →
    s.sp.ovlBlock = sent ++ b :: rest → s.now = s.sp.ovlStart + 10 * sent.length + bit →
    (bit = 0 → s.ovl = false) ∧ (∀ i, i < 8 → bit = i + 1 → s.ovl = b.getLsbD i) ∧ (bit = 9 → s.ovl = true)) ∧
  (∀ s : State, s.sp.ovlStart + 10 * s.sp.ovlBlock.length ≤ s.now → s.ovl = true) ∧
  (∀ (f : FrameRecord) (c : Capture),
    let block := f.stampBlock c
    let slice := fun (from_ n : Nat) => (block.drop from_).take n
    let x := c.published
    let source : Cause → Nat
      | .port .surface => 0x00
      | .port .drive => 0x10
      | .port .head => 0x20
      | .waypoint i => 0x30 + i.val
      | .line i => 0x40 + i.val
      | .halt => 0x50
    let still : List Byte := match f.still with
      | some ⟨cause, some code, _⟩ => u8 (0x80 + source cause) ++ le16 code
      | some ⟨cause, none, _⟩ => u8 (source cause)
      | none => []
    let attitude : List Byte := match c.attitude with
      | some a => s16 a.incline ++ u16 a.roll
      | none => []
    let pose : List Byte := match c.pose with
      | some p => u16 p.pan ++ s16 p.tilt ++ u8 p.zoom
      | none => []
    34 ≤ block.length ∧ block.length ≤ 46 ∧ slice 0 1 = [0xC3] ∧ slice 1 1 = u8 (block.length - 4) ∧
    slice 2 4 = le32 f.number ∧ slice 6 2 = le16 x.runNumber ∧ slice 8 4 = le32 x.runClock ∧
    slice 12 4 = s32 x.chainage ∧ slice 16 2 = le16 x.epoch ∧
    slice 18 1 = u8 (x.source.code + 4 * x.agreement.code + 16 * x.wheelFault.toNat + 32 * x.cableLost.toNat +
      64 * x.sat.toNat + 128 * x.held.toNat) ∧
    slice 19 2 = s16 x.velocity ∧ slice 21 4 = u32 f.t ∧ slice 25 2 = u16 f.d ∧ slice 27 2 = u16 f.g ∧
    slice 29 2 = u16 (f.flags.still.toNat + 2 * f.flags.underlit.toNat + 4 * f.flags.overlit.toNat +
      8 * f.flags.shed.toNat + 16 * f.flags.held.toNat + 32 * f.flags.sat.toNat + 64 * f.flags.moving.toNat +
      128 * f.flags.statsLate.toNat + 256 * f.flags.dwell.toNat) ∧
    slice 31 1 = u8 (f.still.isSome.toNat + 2 * c.attitude.isSome.toNat + 4 * c.pose.isSome.toNat) ∧
    block.drop 32 = still ++ attitude ++ pose ++ le16 (crc16 (slice 1 (block.length - 3))))

/-- LUMA_REPORT fills the one matching record that holds no luma and has been exposed; the 24 bits
come at LRCK's edges after a low period. (log 24, log 30: a commanded low period; log 29, DESIGN
CHOICE: the bit order on LRD; log 4, log 5: how edges reach the part.) -/
def Obligations.LumaReportFillsOneRecord : Prop :=
  (∀ s : State, s.resetLine = false →
    exec .lrckLowPeriod s = .next { s with sp := { s.sp with bits := [], armed := true, lowSince := none } } ∧
    (∀ (tag : Byte) (luma : Half),
      exec (.lumaReport tag luma) s = .next { s with
        sp := { s.sp with bits := [], armed := false }
        fs := { s.fs with ring := s.fs.ring.map fun f =>
          if f.number.truncate 8 = tag ∧ f.luma = none ∧
              ¬ (f.number = s.fs.frameNumber ∧ (s.fs.phase = .pre ∨ s.fs.phase = .expose)) then
            { f with luma := some (if 1023 < luma.toNat then 1023 else luma.toNat) }
          else f } })) ∧
  (∀ (tag : Byte) (luma : Half) (older newer : List FrameRecord) (f : FrameRecord) (s : State),
    s.resetLine = false → s.fs.sound → s.fs.ring.length ≤ 4 → s.fs.ring = older ++ f :: newer →
    f.number.truncate 8 = tag → f.luma = none →
    ¬ (f.number = s.fs.frameNumber ∧ (s.fs.phase = .pre ∨ s.fs.phase = .expose)) →
    exec (.lumaReport tag luma) s = .next { s with
      sp := { s.sp with bits := [], armed := false }
      fs := { s.fs with ring := older ++ { f with luma := some (min 1023 luma.toNat) } :: newer } }) ∧
  (∀ (lrd : Bool) (rest : List Wire) (s : State), s.pending = [] → s.resetLine = false → s.dueEvent = none →
    let u : State := { s with inputs := rest }
    let high : State := { u with
      pins := { s.pins with lrck := true }, sp := { s.sp with lowSince := none } }
    let bits := s.sp.bits ++ [lrd]
    (s.inputs = .lrckFall :: rest →
      (s.pins.lrck = false → step s = .next u) ∧
      (s.pins.lrck = true → step s = .next { u with
        pins := { s.pins with lrck := false }, sp := { s.sp with lowSince := some s.now } })) ∧
    (s.inputs = .lrckRise lrd :: rest →
      (s.pins.lrck = true → step s = .next u) ∧
      (s.pins.lrck = false → s.sp.armed = false → step s = .next high) ∧
      (s.pins.lrck = false → s.sp.armed = true → bits.length < 24 →
        step s = .next { high with sp := { high.sp with bits := bits } }) ∧
      (s.pins.lrck = false → s.sp.armed = true → bits.length = 24 →
        ∃ (tag : Byte) (luma : Half), step s = exec (.lumaReport tag luma) high ∧
          (∀ i, i < 8 → tag.getLsbD i = bits.getD i false) ∧
          (∀ i, i < 16 → luma.getLsbD i = bits.getD (i + 8) false)))) ∧
  (∀ (since : Nat) (s : State), s.pending = [] → s.resetLine = false → s.sp.lowSince = some since →
    since + 40 ≤ s.now → s.cu.candA = none → s.cu.candB = none → s.ca.tsagCand = none →
    s.li.cands = .all none → step s = exec .lrckLowPeriod s)

/-- LAMP MODE, LAMP WEIGHTS, PRESET WRITE and PRESET SELECT write their setting whole or are refused
with RANGE. -/
def Obligations.LampRequestsWriteWhatTheNextBoundaryAdopts : Prop :=
  ∀ (p : Port) (k w0 w1 w2 w3 : Byte) (s : State),
    let h := s.heard p
    let w : Four Nat := ⟨w0.toNat, w1.toNat, w2.toNat, w3.toNat⟩
    let fits : Prop := w0.toNat ≤ 15 ∧ w1.toNat ≤ 15 ∧ w2.toNat ≤ 15 ∧ w3.toNat ≤ 15
    (p = .surface → s.accepts p 0x30 [k] →
      (∀ m : LampMode, m.code = k.toNat → exec (.lampMode p [k]) s = .next
        (({ h with ld := { h.ld with writtenMode := m } } : State).answered p 0x30 .ok [k])) ∧
      (2 < k.toNat → exec (.lampMode p [k]) s = .next (h.answered p 0x30 .range []))) ∧
    (p ≠ .drive → s.accepts p 0x31 [w0, w1, w2, w3] →
      (fits → exec (.lampWeights p [w0, w1, w2, w3]) s = .next
        (({ h with ld := { h.ld with pendingWeights := w } } : State).answered p 0x31 .ok [w0, w1, w2, w3])) ∧
      (¬ fits → exec (.lampWeights p [w0, w1, w2, w3]) s = .next (h.answered p 0x31 .range []))) ∧
    (p = .surface → s.accepts p 0x32 [k, w0, w1, w2, w3] →
      (∀ n : Fin 4, k.toNat = n.val → fits → exec (.presetWrite p [k, w0, w1, w2, w3]) s = .next
        (({ h with ld := { h.ld with presets := h.ld.presets.set n w } } : State).answered p 0x32 .ok [])) ∧
      (3 < k.toNat ∨ ¬ fits → exec (.presetWrite p [k, w0, w1, w2, w3]) s = .next
        (h.answered p 0x32 .range []))) ∧
    (p ≠ .drive → s.accepts p 0x33 [k] →
      (∀ n : Fin 4, k.toNat = n.val → exec (.presetSelect p [k]) s = .next
        (({ h with ld := { h.ld with pendingWeights := h.ld.presets.get n } } : State).answered p 0x33 .ok
          (fourBytes (h.ld.presets.get n)))) ∧
      (3 < k.toNat → exec (.presetSelect p [k]) s = .next (h.answered p 0x33 .range [])))

/-- PWM_PERIOD_END adopts the pending pairs, PWM_ON_END ends a channel's on-steps, DWELL_START
begins DWELL. (log 3, DESIGN CHOICE: what a commanded expiry does to the clock and while its timer
stands; log 15: the end of the on-steps.) -/
def Obligations.PwmAndDwellTimersAct : Prop :=
  ∀ s : State, s.resetLine = false →
    (s.ld.pwmStart = none → exec .pwmPeriodEnd s = .next s ∧ ∀ c, exec (.pwmOnEnd c) s = .next s) ∧
    (∀ start, s.ld.pwmStart = some start →
      exec .pwmPeriodEnd s = .next { s with
        now := max s.now (start + 100)
        ld := { s.ld with
          activePairs := s.ld.pendingPairs, activeLevels := s.ld.pendingLevels, pwmStart := some (start + 100)
          outputs := s.ld.pendingPairs.map fun q => if q.on = 0 then 0 else q.max } } ∧
      ∀ c : Fin 4,
        ((s.ld.activePairs.get c).off = 0 → exec (.pwmOnEnd c) s = .next s) ∧
        ((s.ld.activePairs.get c).off ≠ 0 → exec (.pwmOnEnd c) s = .next { s with
          now := max s.now (start + ((s.ld.activePairs.get c).on * 100 + 1023) / 1024)
          ld := { s.ld with outputs := s.ld.outputs.set c 0 } })) ∧
    (s.ld.standstill = none ∨ s.cfg.dwellTime = 0 ∨ s.ld.dwell = true ∨ s.sq ≠ [] →
      exec .dwellStart s = .next s) ∧
    (∀ start, s.ld.standstill = some start → s.cfg.dwellTime ≠ 0 → s.ld.dwell = false → s.sq = [] →
      exec .dwellStart s = .next { s with
        now := max s.now (start + 2000 * s.cfg.dwellTime), ld := { s.ld with dwell := true } })

/-- STILL joins the tail of the still queue, or is refused with FULL; a halt still goes to the head.
-/
def Obligations.StillJoinsTheTailOrIsRefused : Prop :=
  (∀ (p : Port) (code : Option Half) (s : State),
    let args := (code.map le16).getD []
    let h := s.heard p
    s.accepts p 0x28 args →
    (s.sq.length < 4 → exec (.still p args) s = .next
      (({ h with sq := s.sq ++ [⟨.port p, code, false⟩] } : State).answered p 0x28 .ok
        [BitVec.ofNat 8 (s.sq.length + 1)])) ∧
    (4 ≤ s.sq.length → exec (.still p args) s = .next (h.answered p 0x28 .full []))) ∧
  (∀ (moving : Bool) (s : State),
    (s.sq.length < 4 → s.insertHaltStill moving = { s with sq := ⟨.halt, none, moving⟩ :: s.sq }) ∧
    (∀ (older : List StillEntry) (newest : StillEntry), s.sq = older ++ [newest] → s.sq.length = 4 →
      s.insertHaltStill moving = ({ s with sq := ⟨.halt, none, moving⟩ :: older } : State).journal
        (.mark newest.source false true 1 newest.code)))

/-- HALT starts a sequence in IDLE and is BUSY otherwise; HALT ACK moves ASKED to SETTLING. -/
def Obligations.HaltStartsAndAckSettles : Prop :=
  ∀ s : State,
    (s.accepts .surface 0x29 [] →
      let h := s.heard .surface
      (∀ q, s.hc.seq = some q → exec (.halt .surface []) s = .next (h.answered .surface 0x29 .busy
        [match q.state with
         | .asked => 1
         | .settling => 2
         | .standing => 3])) ∧
      (s.hc.seq = none → exec (.halt .surface []) s = .next
        ((State.journal (.halt .asked .halt .surface none) (State.setEvent .drive .halt { h with
          hc := ⟨some ⟨.asked, .halt, .surface, false, false, .none,
            some (s.now + 2000 * s.cfg.haltTimeout), .stopped⟩, false⟩
          ld := { s.ld with standstill := none, dwell := false } })).answered .surface 0x29 .ok [1]))) ∧
    (s.accepts .drive 0x2A [] →
      ((∀ q, s.hc.seq = some q → q.state ≠ .asked) →
        exec (.haltAck .drive []) s = .next (s.answered .drive 0x2A .state [])) ∧
      (∀ q, s.hc.seq = some q → q.state = .asked →
        let acked := s.journal (.halt .acked q.kind q.origin none)
        let settling : SettleTimer → State := fun timer =>
          { acked with hc := { s.hc with seq := some { q with state := .settling, settle := timer } } }
        (s.cu.velocity ≠ 0 →
          exec (.haltAck .drive []) s = .next ((settling .waiting).answered .drive 0x2A .ok [])) ∧
        (s.cu.velocity = 0 → s.cfg.settleTime ≠ 0 → exec (.haltAck .drive []) s = .next
          ((settling (.running (s.now + 2000 * s.cfg.settleTime))).answered .drive 0x2A .ok [])) ∧
        (s.cu.velocity = 0 → s.cfg.settleTime = 0 →
          let stood : State := ({ acked with hc := { s.hc with seq := some { q with
            state := .standing, haltDue := none, settle := .stopped
            stillMark := if q.kind = .haltStill then .queued else .none } } } : State).journal
              (.halt .standing q.kind q.origin none)
          exec (.haltAck .drive []) s = .next
            ((if q.kind = .haltStill then stood.insertHaltStill false else stood).answered
              .drive 0x2A .ok []))))

/-- RESUME ends a sequence that the asking port may end, and is refused with STATE or RIGHTS. -/
def Obligations.ResumeEndsTheSequence : Prop :=
  ∀ (p : Port) (s : State), s.accepts p 0x2B [] →
    let h := s.heard p
    (s.hc.seq = none → exec (.resume p []) s = .next (h.answered p 0x2B .state [])) ∧
    (∀ q, s.hc.seq = some q →
      let mine : Prop := p = .surface ∨ ∃ slot, q.origin = .waypoint slot p
      (¬ mine → exec (.resume p []) s = .next (h.answered p 0x2B .rights [])) ∧
      (mine →
        let idle : State := { h with
          hc := { h.hc with seq := none }
          ld := { s.ld with standstill := if s.cu.velocity = 0 then some s.now else none } }
        exec (.resume p []) s = .next
          ((State.journal (.halt .resumed q.kind q.origin (some (.port p)))
            (if h.hc.linkHalt then idle else idle.setEvent .drive .halt)).answered p 0x2B .ok [])))

/-- SETTLE_EXPIRY brings STANDING; HALT_TIMEOUT makes HALT stand UNCONFIRMED and ends HALT_STILL
with a moving still. (log 3, DESIGN CHOICE: what a commanded expiry does to the clock and while its
timer stands.) -/
def Obligations.HaltTimersEndTheWait : Prop :=
  ∀ s : State, s.resetLine = false →
    ((∀ q, s.hc.seq = some q → ∀ due, q.settle ≠ .running due) → exec .settleExpiry s = .next s) ∧
    ((∀ q, s.hc.seq = some q → q.haltDue = none) → exec .haltTimeout s = .next s) ∧
    (∀ q due, s.hc.seq = some q → q.settle = .running due →
      let stood : State := ({ s with
        now := max s.now due
        hc := { s.hc with seq := some { q with
          state := .standing, haltDue := none, settle := .stopped
          stillMark := if q.kind = .haltStill then .queued else .none } } } : State).journal
            (.halt .standing q.kind q.origin none)
      exec .settleExpiry s = .next (if q.kind = .haltStill then stood.insertHaltStill false else stood)) ∧
    (∀ q due, s.hc.seq = some q → q.haltDue = some due →
      let timed : State :=
        ({ s with now := max s.now due } : State).journal (.halt .timeout q.kind q.origin none)
      (q.kind = .halt → exec .haltTimeout s = .next { timed with hc := { s.hc with seq := some { q with
        state := .standing, unconfirmed := true, haltDue := none, settle := .stopped } } }) ∧
      (q.kind = .haltStill → exec .haltTimeout s = .next
        (let queued := timed.insertHaltStill true
         let idle : State := { queued with
           hc := { s.hc with seq := none }
           ld := { s.ld with standstill := if s.cu.velocity = 0 then some (max s.now due) else none } }
         if s.hc.linkHalt then idle else idle.setEvent .drive .halt)))

/-- ATTITUDE stores its clamped incline and its roll modulo 3,600, FRESH for 500 ms. (log 7, DESIGN
CHOICE: a second request finds the first one's answer HELD.) -/
def Obligations.AttitudeIsClampedAndFresh : Prop :=
  (∀ (p : Port) (args : List Byte) (s : State), p ≠ .drive → s.accepts p 0x38 args →
    exec (.attitude p args) s = .next ((s.heard p).answered p 0x38 .rights [])) ∧
  (∀ (args : List Byte) (s : State), args.length ≠ 4 → s.accepts .drive 0x38 args →
    exec (.attitude .drive args) s = .next (s.answered .drive 0x38 .length [])) ∧
  (∀ (i0 i1 r0 r1 : Byte) (s : State), s.accepts .drive 0x38 [i0, i1, r0, r1] →
    let i := (half i0 i1).toInt
    let incline : Int := if i < -9000 then -9000 else if 9000 < i then 9000 else i
    let roll := ((half r0 r1).toInt.emod 3600).toNat
    roll ≤ 3599 ∧
    exec (.attitude .drive [i0, i1, r0, r1]) s = .next
      (({ s with fs := { s.fs with attitude := some ⟨⟨incline, roll⟩, s.now + 2000 * 500⟩ } } : State).answered
        .drive 0x38 .ok (s16 incline ++ u16 roll)) ∧
    ((half r0 r1).toInt = -10 → roll = 3590) ∧ ((half r0 r1).toInt = 3605 → roll = 5)) ∧
  (∀ (a0 a1 a2 a3 i0 i1 r0 r1 : Byte) (s : State), s.accepts .drive 0x38 [a0, a1, a2, a3] →
    let i := (half i0 i1).toInt
    let incline : Int := if i < -9000 then -9000 else if 9000 < i then 9000 else i
    let roll := ((half r0 r1).toInt.emod 3600).toNat
    ∃ t : State, exec (.attitude .drive [a0, a1, a2, a3]) s = .next t ∧
      exec (.attitude .drive [i0, i1, r0, r1]) t = .next
        (({ t with fs := { t.fs with attitude := some ⟨⟨incline, roll⟩, t.now + 2000 * 500⟩ } } : State).answered
          .drive 0x38 .ok (s16 incline ++ u16 roll)))

/-- POSE stores pan, tilt and zoom together, FRESH for 500 ms; ATTRIBUTE_EXPIRY makes an attribute
ABSENT. (log 3, DESIGN CHOICE: what a commanded expiry does to the clock and while its timer
stands.) -/
def Obligations.PoseIsStoredWholeAndExpires : Prop :=
  (∀ (p0 p1 t0 t1 z : Byte) (s : State), s.accepts .head 0x39 [p0, p1, t0, t1, z] →
    let pan := ((half p0 p1).toInt.emod 3600).toNat
    let y := (half t0 t1).toInt
    let tilt : Int := if y < -900 then -900 else if 900 < y then 900 else y
    let zoom := if z = 0 then 1 else z.toNat
    exec (.pose .head [p0, p1, t0, t1, z]) s = .next
      (({ s with fs := { s.fs with pose := some ⟨⟨pan, tilt, zoom⟩, s.now + 2000 * 500⟩ } } : State).answered
        .head 0x39 .ok (u16 pan ++ s16 tilt ++ u8 zoom))) ∧
  (∀ s : State, s.resetLine = false →
    (s.fs.attitude = none → exec (.attributeExpiry .attitude) s = .next s) ∧
    (s.fs.pose = none → exec (.attributeExpiry .pose) s = .next s) ∧
    (∀ x, s.fs.attitude = some x → exec (.attributeExpiry .attitude) s =
      .next { s with now := max s.now x.due, fs := { s.fs with attitude := none } }) ∧
    (∀ x, s.fs.pose = some x → exec (.attributeExpiry .pose) s =
      .next { s with now := max s.now x.due, fs := { s.fs with pose := none } }))

/-- JOURNAL NEXT and BULK answer NONE, GAP or the records at the asking port's cursor, byte by byte
as 12.4 lays them out, and move it past them. -/
def Obligations.JournalReadsFollowTheCursor : Prop :=
  (∀ (p : Port) (s : State),
    let h := s.heard p
    let cursor := s.jn.cursors.get p
    let base := s.jn.next - s.jn.store.length
    let moved : Nat → State := fun n => { h with jn := { h.jn with cursors := h.jn.cursors.set p n } }
    (cursor = s.jn.next →
      (s.accepts p 0x40 [] → exec (.journalNext p []) s = .next (h.answered p 0x40 .none [])) ∧
      (s.accepts p 0x41 [] → exec (.journalBulk p []) s = .next (h.answered p 0x41 .none []))) ∧
    (cursor < base →
      (s.accepts p 0x40 [] → exec (.journalNext p []) s = .next
        ((moved base).answered p 0x40 .gap (u32 (base - cursor)))) ∧
      (s.accepts p 0x41 [] → exec (.journalBulk p []) s = .next
        ((moved base).answered p 0x41 .gap (u32 (base - cursor))))) ∧
    (base ≤ cursor → cursor < s.jn.next → s.jn.store.length ≤ s.jn.next →
      (s.accepts p 0x40 [] → ∀ r, s.jn.store[cursor - base]? = some r → exec (.journalNext p []) s = .next
        ((moved (cursor + 1)).answered p 0x40 .ok r.bytes)) ∧
      (s.accepts p 0x41 [] → (∀ r ∈ s.jn.store, 4 * r.body.words ≤ 240) → ∃ taken : List Record,
        taken ≠ [] ∧ taken <+: s.jn.store.drop (cursor - base) ∧ taken.length ≤ 8 ∧
        4 * usedWords taken ≤ 240 ∧
        (∀ r, taken ++ [r] <+: s.jn.store.drop (cursor - base) →
          taken.length = 8 ∨ 240 < 4 * usedWords (taken ++ [r])) ∧
        exec (.journalBulk p []) s = .next ((moved (cursor + taken.length)).answered p 0x41 .ok
          (u8 taken.length ++ (taken.map Record.bytes).flatten))))) ∧
  (∀ r : Record,
    let x := r.header
    let cause : Cause → Nat
      | .port .surface => 0x00
      | .port .drive => 0x10
      | .port .head => 0x20
      | .waypoint i => 0x30 + i.val
      | .line i => 0x40 + i.val
      | .halt => 0x50
    let zeros : Nat → List Byte := fun n => List.replicate n 0
    let text : List Byte → List Byte := fun bs => bs ++ zeros ((4 - bs.length % 4) % 4)
    let code : Option Half → List Byte := fun c => (c.map fun x => le16 x ++ [0, 0]).getD []
    let frame : Nat → Option Half → FrameBody → List Byte := fun source c f =>
      u8 (c.isSome.toNat + 2 * f.attitude.isSome.toNat + 4 * f.pose.isSome.toNat) ++ u8 source ++ [0, 0] ++
      le32 f.number ++ u32 f.t ++ u16 f.d ++ u16 f.g ++
      u16 (f.flags.still.toNat + 2 * f.flags.underlit.toNat + 4 * f.flags.overlit.toNat +
        8 * f.flags.shed.toNat + 16 * f.flags.held.toNat + 32 * f.flags.sat.toNat + 64 * f.flags.moving.toNat +
        128 * f.flags.statsLate.toNat + 256 * f.flags.dwell.toNat) ++ [0, 0] ++ code c ++
      (match f.attitude with
        | some a => s16 a.incline ++ u16 a.roll
        | none => []) ++
      (match f.pose with
        | some p => u16 p.pan ++ s16 p.tilt ++ u8 p.zoom ++ [0, 0, 0]
        | none => [])
    let kindAndBody : Nat × List Byte := match r.body with
      | .runOpen direction label => (0x01, u8 (decide (label ≠ [])).toNat ++
          u8 (match direction with
            | .withFlow => 0
            | .againstFlow => 1) ++ u8 label.length ++ [0] ++ text label)
      | .runClose implicit wheelTotal cableTotal =>
        (0x02, zeros 1 ++ u8 implicit.toNat ++ [0, 0] ++ le32 wheelTotal ++ le32 cableTotal)
      | .reref requester old => (0x03, zeros 1 ++ u8 (match requester with
          | .zero => 0x00
          | .set => 0x10
          | .line i => 0x20 + i.val
          | .runStart => 0x30) ++ [0, 0] ++ s32 old)
      | .state causes before after wheelFault cableLost =>
        (0x04, zeros 1 ++ u8 (causes.agreement.toNat + 2 * causes.wheelFault.toNat + 4 * causes.cableLost.toNat +
          8 * causes.reelJump.toNat) ++ u8 (before.code + 4 * after.code) ++
          u8 (wheelFault.toNat + 2 * cableLost.toNat))
      | .mark from_ haltBusy stillDropped n c => (0x05, u8 c.isSome.toNat ++ u8 (cause from_) ++
          u8 (haltBusy.toNat + 2 * stillDropped.toNat) ++ [0] ++ u32 n ++ code c)
      | .still source c f => (0x06, frame (cause source) c f)
      | .frame f => (0x07, frame 0 none f)
      | .halt phase kind origin requester => (0x08, u8 requester.isSome.toNat ++
          u8 ((match phase with
            | .asked => 0
            | .acked => 1
            | .standing => 2
            | .moved => 3
            | .done => 4
            | .timeout => 5
            | .resumed => 6) + 16 * (decide (kind = .haltStill)).toNat) ++
          (match origin with
            | .surface => [0, 0]
            | .waypoint i owner => u8 (0x30 + i.val) ++ u8 (match owner with
              | .surface => 0
              | .drive => 1
              | .head => 2)) ++
          (match requester with
            | some q => u8 (cause q) ++ [0, 0, 0]
            | none => []))
      | .sag none => (0x09, [0, 0, 0, 0])
      | .sag (some duration) => (0x09, [1, 1, 0, 0] ++ le32 duration)
      | .lost count first => (0x0A, zeros 4 ++ u32 count ++ le32 first)
      | .restart => (0x0B, [])
      | .note bs => (0x0C, u8 (decide (bs ≠ [])).toNat ++ u8 bs.length ++ [0, 0] ++ text bs)
    r.bytes = u32 r.seq ++ u8 kindAndBody.1 ++ u8 r.body.words ++ le16 x.runNumber ++ le32 x.runClock ++
      s32 x.chainage ++ le16 x.epoch ++
      u16 (x.source.code + 4 * x.agreement.code + 16 * x.wheelFault.toNat + 32 * x.cableLost.toNat +
        64 * x.sat.toNat + 128 * x.held.toNat + 256 * x.capture.toNat) ++ kindAndBody.2 ∧
    r.bytes.length = 4 * r.body.words)

/-- JOURNAL SEEK, REWIND, BIND and UNBIND act on the asking port's cursor and binding; CLEAR and
MODE on the journal. -/
def Obligations.JournalPositionsAreTheAskingPorts : Prop :=
  ∀ (p : Port) (s : State),
    let h := s.heard p
    let base := s.jn.next - s.jn.store.length
    let at_ : Nat → State := fun n => { h with jn := { h.jn with cursors := h.jn.cursors.set p n } }
    let bound : Bool → State := fun b => { h with jn := { h.jn with bound := h.jn.bound.set p b } }
    (∀ b0 b1 b2 b3 : Byte, s.accepts p 0x42 [b0, b1, b2, b3] →
      let n := (word b0 b1 b2 b3).toNat
      (base ≤ n → n ≤ s.jn.next → exec (.journalSeek p [b0, b1, b2, b3]) s = .next
        ((at_ n).answered p 0x42 .ok (u32 n))) ∧
      (n < base ∨ s.jn.next < n → exec (.journalSeek p [b0, b1, b2, b3]) s = .next
        (h.answered p 0x42 .range []))) ∧
    (s.accepts p 0x43 [] → exec (.journalRewind p []) s = .next ((at_ base).answered p 0x43 .ok (u32 base))) ∧
    (s.accepts p 0x44 [] → exec (.journalBind p []) s = .next
      ((bound true).answered p 0x44 .ok (u32 (s.jn.cursors.get p) ++ [1]))) ∧
    (s.accepts p 0x45 [] → exec (.journalUnbind p []) s = .next
      ((bound false).answered p 0x45 .ok (u32 (s.jn.cursors.get p) ++ [0]))) ∧
    (p = .surface → s.accepts p 0x46 [] → exec (.journalClear p []) s = .next
      (({ h with jn := { h.jn with store := [], cursors := .all s.jn.next } } : State).answered p 0x46 .ok
        (u32 s.jn.next))) ∧
    (∀ b : Byte, p = .surface → s.accepts p 0x47 [b] →
      (∀ m : JournalMode, m.code = b.toNat → exec (.journalMode p [b]) s = .next
        (({ h with jn := { h.jn with mode := m } } : State).answered p 0x47 .ok (b :: u32 s.jn.dropCount))) ∧
      (1 < b.toNat → exec (.journalMode p [b]) s = .next (h.answered p 0x47 .range [])))

/-- MARK and NOTE hand the journal one record and answer the number it received. -/
def Obligations.MarkAndNoteHandOneRecord : Prop :=
  ∀ (p : Port) (s : State),
    let h := s.heard p
    let header : Header := ⟨s.cu.runNumber, s.cu.runClock, s.cu.chainage, s.cu.epoch, s.cu.trusted,
      s.cu.agreement, s.cu.wheelFault, s.cu.cableLost, s.cu.sat, decide (s.cu.trusted = .none), false⟩
    (∀ b0 b1 : Byte, p ≠ .drive → s.accepts p 0x48 [b0, b1] →
      let r := h.handRecord header (.mark (.port p) false false 1 (some (half b0 b1)))
      exec (.mark p [b0, b1]) s = .next (r.1.answered p 0x48 .ok (u32 r.2))) ∧
    (∀ text : List Byte, text.length ≤ 32 → p = .surface → s.accepts p 0x49 text →
      let r := h.handRecord header (.note text)
      exec (.note p text) s = .next (r.1.answered p 0x49 .ok (u32 r.2)))

/-- A record is stored under the next number after the fewest evictions, and a dropped one is
counted. -/
def Obligations.StoringEvictsNoMoreThanItMust : Prop :=
  (∀ (header : Header) (b : Body) (s : State), s.jn.dropCount = 0 → s.jn.next < 4294967295 →
    b.words ≤ 8192 →
    ∃ k : Nat, k ≤ s.jn.store.length ∧ b.words + usedWords (s.jn.store.drop k) ≤ 8192 ∧
      (∀ j, j < k → 8192 < b.words + usedWords (s.jn.store.drop j)) ∧
      (let guarded : Record → Prop := fun r =>
        ∃ p : Port, s.jn.bound.get p = true ∧ s.jn.cursors.get p ≤ r.seq
       (s.jn.mode = .wrap ∨ (∀ r ∈ s.jn.store.take k, ¬ guarded r) →
         ∃ latches : PerPort (BitVec 9),
           s.handRecord header b = ({ s with
             jn := { s.jn with store := s.jn.store.drop k ++ [⟨s.jn.next, header, b⟩], next := s.jn.next + 1 }
             pi := { s.pi with latches := latches } }, s.jn.next) ∧
           ∀ p, latches.get p = if s.jn.cursors.get p = s.jn.next then s.pi.latches.get p ||| Event.bit .journal
             else s.pi.latches.get p) ∧
       (s.jn.mode = .hold → (∃ r ∈ s.jn.store.take k, guarded r) →
         s.handRecord header b =
           ({ s with jn := { s.jn with dropCount := 1, firstDrop := some s.cu.runClock } }, 0)))) ∧
  (∀ (header : Header) (b : Body) (s : State), 4294967295 ≤ s.jn.next →
    s.handRecord header b = ({ s with jn := { s.jn with
      dropCount := min (s.jn.dropCount + 1) 4294967295
      firstDrop := if s.jn.dropCount = 0 then some s.cu.runClock else s.jn.firstDrop } }, 0))

/-- In HOLD no record that a bound cursor has not read is evicted, and drops are reported by a LOST
record. -/
def Obligations.HoldEvictsNoProtectedRecord : Prop :=
  ∀ (header : Header) (b : Body) (s : State),
    let t := (s.handRecord header b).1
    let number := (s.handRecord header b).2
    (s.jn.mode = .hold → ∀ r ∈ s.jn.store, ∀ p : Port, s.jn.bound.get p = true → s.jn.cursors.get p ≤ r.seq →
      r ∈ t.jn.store) ∧
    (s.jn.dropCount ≠ 0 → s.jn.next + 1 < 4294967295 →
      (number ≠ 0 → number = s.jn.next + 1 ∧ t.jn.next = s.jn.next + 2 ∧
        t.jn.dropCount = 0 ∧ t.jn.firstDrop = none ∧
        ∀ clock, s.jn.firstDrop = some clock → ∃ kept, t.jn.store = kept ++
          [⟨s.jn.next, s.header, .lost s.jn.dropCount clock⟩, ⟨s.jn.next + 1, header, b⟩]) ∧
      (number = 0 → t = { s with jn := { s.jn with
        dropCount := min (s.jn.dropCount + 1) 4294967295 } })) ∧
    (∀ clock, s.jn.dropCount ≠ 0 → s.jn.firstDrop = some clock → s.jn.next + 1 < 4294967295 →
      8 + b.words ≤ 8192 →
      let guarded : Record → Prop := fun r =>
        ∃ p : Port, s.jn.bound.get p = true ∧ s.jn.cursors.get p ≤ r.seq
      ∃ k : Nat, k ≤ s.jn.store.length ∧ 8 + b.words + usedWords (s.jn.store.drop k) ≤ 8192 ∧
        (∀ j, j < k → 8192 < 8 + b.words + usedWords (s.jn.store.drop j)) ∧
        (s.jn.mode = .wrap ∨ (∀ r ∈ s.jn.store.take k, ¬ guarded r) →
          ∃ latches : PerPort (BitVec 9),
            s.handRecord header b = ({ s with
              jn := { s.jn with
                store := s.jn.store.drop k ++
                  [⟨s.jn.next, s.header, .lost s.jn.dropCount clock⟩, ⟨s.jn.next + 1, header, b⟩]
                next := s.jn.next + 2, dropCount := 0, firstDrop := none }
              pi := { s.pi with latches := latches } }, s.jn.next + 1) ∧
            ∀ p, latches.get p =
              if s.jn.cursors.get p = s.jn.next ∨ s.jn.cursors.get p = s.jn.next + 1 then
                s.pi.latches.get p ||| Event.bit .journal
              else s.pi.latches.get p) ∧
        (s.jn.mode = .hold → (∃ r ∈ s.jn.store.take k, guarded r) →
          s.handRecord header b = ({ s with jn := { s.jn with
            dropCount := min (s.jn.dropCount + 1) 4294967295 } }, 0))) ∧
    (∀ clock, s.jn.dropCount ≠ 0 → s.jn.firstDrop = some clock → s.jn.next + 1 = 4294967295 →
      let drops := min (s.jn.dropCount + 1) 4294967295
      let guarded : Record → Prop := fun r =>
        ∃ p : Port, s.jn.bound.get p = true ∧ s.jn.cursors.get p ≤ r.seq
      ∃ k : Nat, k ≤ s.jn.store.length ∧ 8 + usedWords (s.jn.store.drop k) ≤ 8192 ∧
        (∀ j, j < k → 8192 < 8 + usedWords (s.jn.store.drop j)) ∧
        (s.jn.mode = .wrap ∨ (∀ r ∈ s.jn.store.take k, ¬ guarded r) →
          ∃ latches : PerPort (BitVec 9),
            s.handRecord header b = ({ s with
              jn := { s.jn with
                store := s.jn.store.drop k ++ [⟨s.jn.next, s.header, .lost drops clock⟩]
                next := s.jn.next + 1, dropCount := 0, firstDrop := none }
              pi := { s.pi with latches := latches } }, 0) ∧
            ∀ p, latches.get p =
              if s.jn.cursors.get p = s.jn.next then s.pi.latches.get p ||| Event.bit .journal
              else s.pi.latches.get p) ∧
        (s.jn.mode = .hold → (∃ r ∈ s.jn.store.take k, guarded r) →
          s.handRecord header b = ({ s with jn := { s.jn with dropCount := drops } }, 0)))

/-- The filters of the phases, TSAG and the lines accept a change; LINE_EDGE performs the line's
function once, LINE_INACTIVE_CHANGE nothing. (log 23: an edge whatever level was accepted; log 2,
log 4, log 5: how samples reach the filters, and their order.) -/
def Obligations.LineEdgePerformsItsFunction : Prop :=
  (∀ (n : Fin 4) (s : State), s.resetLine = false →
    let level : Bool := match (s.cfg.lines.get n).polarity with
      | .activeLow => false
      | .activeHigh => true
    let accepted : Bool → State := fun l => { s with li := { s.li with
      accepted := s.li.accepted.set n l, cands := s.li.cands.set n none } }
    let e := accepted level
    exec (.lineInactiveChange n) s = .next (accepted (!level)) ∧
    ((s.cfg.lines.get n).function = .none → exec (.lineEdge n) s = .next e) ∧
    ((s.cfg.lines.get n).function = .zero →
      exec (.lineEdge n) s = .next (e.rereference s.cfg.zeroOffset (.line n)) ∧
      ∃ t : State, exec (.lineEdge n) s = .next t ∧ (-100000 ≤ s.cfg.zeroOffset → s.cfg.zeroOffset ≤ 3000000 →
        t.cu.chainage = s.cfg.zeroOffset ∧ t.cu.sat = false)) ∧
    ((s.cfg.lines.get n).function = .still → exec (.lineEdge n) s = .next
      (if s.sq.length < 4 then { e with sq := s.sq ++ [⟨.line n, none, false⟩] }
       else e.journal (.mark (.line n) false true 1 none))) ∧
    ((s.cfg.lines.get n).function = .mark → exec (.lineEdge n) s = .next
      (e.journal (.mark (.line n) false false 1 none))) ∧
    ((s.cfg.lines.get n).function = .resume →
      (s.hc.seq = none → exec (.lineEdge n) s = .next e) ∧
      (∀ q, s.hc.seq = some q →
        let idle : State := { e with
          hc := { s.hc with seq := none }
          ld := { s.ld with standstill := if s.cu.velocity = 0 then some s.now else none } }
        exec (.lineEdge n) s = .next (State.journal (.halt .resumed q.kind q.origin (some (.line n)))
          (if s.hc.linkHalt then idle else idle.setEvent .drive .halt))))) ∧
  (∀ (p : Pins) (s : State),
    let seen : Bool → Bool → Nat → Option Candidate → Option Candidate := fun accepted level width c =>
      if level = accepted then none
      else
        let age := (c.map fun c => c.age + 1).getD 0
        some ⟨age, decide (width ≤ age)⟩
    let line : Fin 4 → Option Candidate := fun n =>
      seen (s.li.accepted.get n) (p.lines.get n) (2000 * (s.cfg.lines.get n).debounce) (s.li.cands.get n)
    let sampled : State := { s with
      now := s.now + 1
      pins := { p with lrck := s.pins.lrck }
      cu := { s.cu with
        candA := seen s.cu.phaseA p.wa s.cfg.glitchWidth s.cu.candA
        candB := seen s.cu.phaseB p.wb s.cfg.glitchWidth s.cu.candB }
      ca := { s.ca with tsagCand := seen s.ca.sag.isSome p.tsag 4 s.ca.tsagCand }
      li := { s.li with cands := ⟨line 0, line 1, line 2, line 3⟩ } }
    s.pending = [] → s.resetLine = false → s.dueEvent = none →
    (∀ rest, s.inputs = .sample p :: rest → step s = .next { sampled with inputs := rest }) ∧
    (s.inputs = [] → p = s.pins → step s = .next sampled)) ∧
  (∀ s : State, s.pending = [] → s.resetLine = false →
    let ripe : Option Candidate → Bool := fun c => c.any Candidate.ripe
    let a := ripe s.cu.candA
    let b := ripe s.cu.candB
    (a = true ∨ b = true → step s = exec (.wheelFilterAccept (s.cu.phaseA ^^ a) (s.cu.phaseB ^^ b)) s) ∧
    (a = false → b = false → ripe s.ca.tsagCand = true →
      step s = exec (if s.ca.sag = none then .sagAssert else .sagRelease) s) ∧
    (a = false → b = false → ripe s.ca.tsagCand = false → ∀ n : Fin 4, ripe (s.li.cands.get n) = true →
      (∀ m, m < n → ripe (s.li.cands.get m) = false) →
      step s = exec (if s.li.accepted.get n = decide ((s.cfg.lines.get n).polarity = .activeHigh)
        then .lineInactiveChange n else .lineEdge n) s))

/-- RESTART clears claims, halt, stills, frame and lamp outputs, and keeps the chainage, the run,
the waypoints and the journal. (log 19, DESIGN CHOICE: the pairs of 0 on-steps carry a channel
maximum of forming of 0.) -/
def Obligations.RestartClearsThePowerSideAndKeepsTheSurvey : Prop :=
  ∀ (choice : Byte) (s : State), s.accepts .surface 0x05 [choice] →
    let h := s.heard .surface
    (1 < choice.toNat → exec (.restart .surface [choice]) s = .next (h.answered .surface 0x05 .range [])) ∧
    (choice.toNat ≤ 1 → ∃ t : State, exec (.restart .surface [choice]) s = .next (t.answered .surface 0x05 .ok []) ∧
      t.ca = { h.ca with claims := .all ⟨0, 0, .settled⟩, queue := [] } ∧
      t.hc = ⟨none, false⟩ ∧ t.sq = [] ∧
      t.fs = { h.fs with
        phase := .none, windowOpen := false, ring := [], reportMark := none
        carried := h.cfg.dMax / 4 * (h.cfg.userExposure / 2) } ∧
      t.ld = { h.ld with
        pendingLevels := .all 0, activeLevels := .all 0, outputs := .all 0, pwmStart := none
        pendingPairs := .all ⟨0, 1024, 0⟩, activePairs := .all ⟨0, 1024, 0⟩, dwell := false
        standstill := if h.cu.velocity = 0 then some h.now else none } ∧
      (let first := if choice = 0 ∨ h.cu.cableLost = true then h.jn.next
        else (({ h with cu := t.cu } : State).journal
          (.state ⟨false, false, true, false⟩ h.cu.agreement h.cu.agreement h.cu.wheelFault true)).jn.next
       ∀ p, t.pi.latches.get p = Event.bit .restart |||
        (if first ≤ h.jn.cursors.get p ∧ h.jn.cursors.get p < t.jn.next then Event.bit .journal else 0)) ∧
      t.wt = h.wt.map (fun
        | .armed e _ => .armed e (if h.cu.chainage < e.point then .below else .above)
        | x => x) ∧
      (choice = 0 → t.cu = h.cu) ∧
      (choice = 1 → t.cu = { h.cu with
        reelSeed := none, cableLost := true
        silenceStart := if h.cu.cableLost then h.cu.silenceStart else none
        trusted := if h.cu.cableLost then h.cu.trusted
          else trustedTrack h.cfg.sourceMode h.cu.agreement h.cu.wheelFault true }) ∧
      (choice = 0 ∨ h.cu.cableLost = true → t.jn = (h.journal .restart).jn) ∧
      (choice = 1 → h.cu.cableLost = false → t.jn =
        (State.journal .restart (({ h with cu := t.cu } : State).journal
          (.state ⟨false, false, true, false⟩ h.cu.agreement h.cu.agreement h.cu.wheelFault true))).jn) ∧
      t.jn.mode = h.jn.mode ∧ t.jn.cursors = h.jn.cursors ∧ t.jn.bound = h.jn.bound ∧
      t.pi = { h.pi with latches := t.pi.latches } ∧
      t.cfg = h.cfg ∧ t.li = h.li ∧ t.sp = h.sp ∧ t.now = h.now ∧ t.pins = h.pins)

/-- Every step keeps the grants and the larger of lamp commit and lamp floor within the tether
allowance. -/
def Obligations.EveryStepKeepsTheBudget : Prop :=
  ∀ s t : State, s.budgetHolds → step s = .next t → t.budgetHolds

/-- Every step keeps the chainage within its limits, the trusted track the one its table names, and
every waypoint's side right. -/
def Obligations.EveryStepKeepsThePositionSound : Prop :=
  ∀ s t : State, s.cu.inRange → s.trustHolds → s.sidesHold → s.cfg.inRange → step s = .next t →
    t.cu.inRange ∧ t.trustHolds ∧ t.sidesHold

/-- Every step keeps the journal's numbers contiguous, its store within 8,192 words and its cursors
at or below N. -/
def Obligations.EveryStepKeepsTheJournalSound : Prop :=
  ∀ s t : State, s.jn.sound → step s = .next t → t.jn.sound

/-- Every step keeps the pending queue, the queues of four, the frame ring and the halt timers as
their chapters state. -/
def Obligations.EveryStepKeepsTheBlocksSound : Prop :=
  ∀ s t : State, s.ca.queueHolds → s.placesHold → s.fs.sound → s.hc.sound → step s = .next t →
    t.ca.queueHolds ∧ t.placesHold ∧ t.fs.sound ∧ t.hc.sound

/-- Every step keeps every setting within its range, the dependent ranges among them. -/
def Obligations.EveryStepKeepsTheSettingsInRange : Prop :=
  ∀ s t : State, s.cfg.inRange → step s = .next t → t.cfg.inRange

/-- The invariants that every step keeps hold right after reset. -/
def Obligations.TheInvariantsHoldAtReset : Prop :=
  State.reset.budgetHolds ∧ State.reset.cu.inRange ∧ State.reset.trustHolds ∧ State.reset.sidesHold ∧
  State.reset.cfg.inRange ∧ State.reset.jn.sound ∧ State.reset.ca.queueHolds ∧ State.reset.placesHold ∧
  State.reset.fs.sound ∧ State.reset.hc.sound

/-- A request's frame is received as that request: on SRXD it acts at its last byte, on SPI and I2C
it reaches the answer slot and the answer is shifted out. (log 5: how bytes and bus edges reach the
part; log 14: what follows the frame kept; log 28: when NOT_READY is filled; log 31, DESIGN CHOICE:
the time of a byte is that of its receipt; log 34, PRESUMED: DMISO changes at the falling edge of
DSCK.) -/
def Obligations.AFrameIsReceivedAsItsRequest : Prop :=
  (∀ (bs : List Byte) (b : Byte), crc16 [] = 0xFFFF ∧
    crc16 (bs ++ [b]) = (List.range 8).foldl
      (fun r _ => if r.getLsbD 15 then (r <<< 1) ^^^ 0x1021 else r <<< 1)
      (crc16 bs ^^^ (b.zeroExtend 16 <<< 8))) ∧
  crc16 [0x31, 0x32, 0x33, 0x34, 0x35, 0x36, 0x37, 0x38, 0x39] = 0x29B1 ∧
  (∀ payload : List Byte,
    let counted := BitVec.ofNat 8 payload.length :: payload
    frameBytes payload = [0xA5] ++ counted ++ le16 (crc16 counted) ∧
    (payload ≠ [] → payload.length ≤ 250 → ∀ c0 c1 : Byte,
      Receiver.hunt.feed ([0xA5] ++ counted ++ [c0, c1]) =
        if [c0, c1] = le16 (crc16 counted) then .valid payload else .discarded)) ∧
  (∀ a : Answer, a.bytes = frameBytes (a.code :: a.status.code :: a.summary :: a.data)) ∧
  ([Status.ok, .pending, .none, .gap, .busy, .state, .range, .rights, .owner, .full, .stale, .conflict,
      .unknown, .length, .notReady].map Status.code =
    [0x00, 0x01, 0x02, 0x03, 0x10, 0x11, 0x12, 0x13, 0x14, 0x15, 0x16, 0x17, 0x18, 0x19, 0x1A]) ∧
  (∀ (n : Nat) (i : Int) (x : Half) (y : Word32) (b0 b1 b2 b3 : Byte),
    u8 n = [BitVec.ofNat 8 n] ∧ u16 n = [BitVec.ofNat 8 n, BitVec.ofNat 8 (n / 256)] ∧
    u32 n = u16 n ++ u16 (n / 65536) ∧ s16 i = u16 (i.emod 65536).toNat ∧
    s32 i = u32 (i.emod 4294967296).toNat ∧ le16 x = u16 x.toNat ∧ le32 y = u32 y.toNat ∧
    le16 (half b0 b1) = [b0, b1] ∧ le32 (word b0 b1 b2 b3) = [b0, b1, b2, b3]) ∧
  (∀ (i : Instr) (p : Port) (code : Byte) (args : List Byte), i.wellFormed = true →
    asRequest i = some (p, code, args) →
    Receiver.hunt.feed (frameBytes (code :: args)) = .valid (code :: args) ∧ requestOf p code args = i) ∧
  (∀ s : State,
    let bitsOf : List Byte → List Bool := fun bs =>
      bs.flatMap fun b => (List.range 8).map fun k => b.getLsbD (7 - k)
    let out := bitsOf (s.slotRead .drive).bytes
    let released : State :=
      { s with pi := { s.pi with spi := ⟨false, false, [], false, false, none, [], none⟩ } }
    let clocked : List Bool → State := fun xs => xs.foldl (fun u x => (u.dsckRise x).dsckFall) s.driveSelect
    (∀ (xs : List Bool) (x : Bool), (clocked xs).pi.spi.miso = some (out.getD xs.length false) ∧
      ((clocked xs).dsckRise x).pi.spi.miso = some (out.getD xs.length false)) ∧
    (∀ xs : List Bool, xs.length < 8 → (clocked xs).driveRelease = exec (.invalidFrame .drive) released) ∧
    (s.pi.receivers.drive = .hunt →
      (∀ (i : Instr) (code : Byte) (args : List Byte) (more : List Bool), i.wellFormed = true →
        asRequest i = some (.drive, code, args) →
        (clocked (bitsOf (frameBytes (code :: args)) ++ more)).driveRelease =
          exec (.answerSlotAccept .drive code args) released) ∧
      (∀ (x : Byte) (more : List Bool), x ≠ 0xA5 →
        (clocked (bitsOf [x] ++ more)).driveRelease = exec (.invalidFrame .drive) released))) ∧
  (∀ s : State, s.pi.i2c.mode ≠ .write →
    let bus : I2cBus → State := fun x => { s with pi := { s.pi with i2c := x } }
    let out := (s.slotRead .head).bytes
    let own := s.pi.headAddress
    let writing := bus ⟨.write, none, [], none, true⟩
    let written : List Byte → State := fun xs => xs.foldl (fun u x => u.headWrite x) writing
    let idle := bus ⟨.idle, none, [], none, false⟩
    (∀ address read, s.headStart address read = .next
      (if address = own then (if read then bus ⟨.read, none, out, none, true⟩ else writing) else idle)) ∧
    (∀ xs : List Byte, (written xs).pi.i2c.ack = true) ∧
    (∀ (x : Byte) (xs : List Byte),
      ((x :: xs).foldl (fun u _ => u.headRead) (bus ⟨.read, none, out, none, true⟩)).pi.i2c.sda =
        some (out.getD xs.length 0xFF)) ∧
    (s.pi.receivers.head = .hunt → ∀ (i : Instr) (code : Byte) (args more : List Byte), i.wellFormed = true →
      asRequest i = some (.head, code, args) →
      let u := written (frameBytes (code :: args) ++ more)
      u.endHeadWrite = exec (.answerSlotAccept .head code args) idle ∧
      ∀ address read, ∃ t, exec (.answerSlotAccept .head code args) idle = .next t ∧
        u.headStart address read = .next (t.headAddressed address read))) ∧
  (∀ (w : Wire) (rest : List Wire) (s : State), s.pending = [] → s.resetLine = false → s.dueEvent = none →
    s.inputs = w :: rest →
    let u : State := { s with inputs := rest }
    (w = .driveSelect → step s = .next u.driveSelect) ∧
    (∀ x, w = .dsckRise x → step s = .next (u.dsckRise x)) ∧
    (w = .dsckFall → step s = .next u.dsckFall) ∧
    (w = .driveRelease → step s = u.driveRelease) ∧
    (∀ address read, w = .headStart address read → step s = u.headStart address read) ∧
    (∀ x, w = .headWrite x → step s = .next (u.headWrite x)) ∧
    (w = .headRead → step s = .next u.headRead) ∧
    (w = .headStop → step s = u.endHeadWrite)) ∧
  (∀ (b : Byte) (stopBit : Bool) (rest : List Wire) (s : State), s.pending = [] → s.resetLine = false →
    s.dueEvent = none → s.inputs = .surfaceByte b stopBit :: rest →
    let u : State := { s with inputs := rest }
    let heardByte : State := { u with pi := { s.pi with lastByte := s.now } }
    (stopBit = false → step s = exec (.invalidFrame .surface) u) ∧
    (stopBit = true → step s = u.surfaceByte b true ∧
      (∀ r, s.pi.receivers.surface.take b = .more r → step s =
        .next { heardByte with pi := { heardByte.pi with receivers := s.pi.receivers.set .surface r } }) ∧
      (s.pi.receivers.surface.take b = .discarded → step s = exec (.invalidFrame .surface) heardByte))) ∧
  (∀ (i : Instr) (code : Byte) (args : List Byte) (s : State), i.wellFormed = true →
    asRequest i = some (.surface, code, args) → s.resetLine = false → s.pi.receivers.surface = .hunt →
    s.surfaceBytes (frameBytes (code :: args)) = exec i { s with pi := { s.pi with lastByte := s.now } })
end

