-- ==== Sys2Proof/Laws/State.lean ====
section
/-! SUPPORT. The small lemmas of the state's containers and of its updates: what a read gives after a
write, and, for each operation shared by the blocks, every field that it leaves unchanged. They are
simp lemmas, so that no proof unfolds a record update. -/

namespace Sys2Proof.Machine

/-- Fields that no operation of a block changes. -/
@[simp] abbrev SameBase (t s : State) : Prop :=
  t.resetLine = s.resetLine ∧ t.pins = s.pins ∧ t.cfg = s.cfg ∧ t.inputs = s.inputs ∧ t.pending = s.pending

/-- The port interface is unchanged but for its event latches. -/
@[simp] abbrev OnlyLatches (t s : State) : Prop :=
  t.pi.receivers = s.pi.receivers ∧ t.pi.lastByte = s.pi.lastByte ∧ t.pi.outQueue = s.pi.outQueue ∧
  t.pi.sendStart = s.pi.sendStart ∧ t.pi.driveSlot = s.pi.driveSlot ∧ t.pi.headSlot = s.pi.headSlot ∧
  t.pi.masks = s.pi.masks ∧ t.pi.linkDue = s.pi.linkDue ∧ t.pi.fastBaud = s.pi.fastBaud ∧
  t.pi.headAddress = s.pi.headAddress ∧ t.pi.spi = s.pi.spi ∧ t.pi.i2c = s.pi.i2c

/-- The journal is unchanged but for its records, its next number and its drops. -/
@[simp] abbrev OnlyRecords (t s : State) : Prop :=
  t.jn.mode = s.jn.mode ∧ t.jn.cursors = s.jn.cursors ∧ t.jn.bound = s.jn.bound

/-- The lamp driver is unchanged but for its dwell state and standstill time. -/
@[simp] abbrev OnlyDwell (t s : State) : Prop :=
  t.ld.writtenMode = s.ld.writtenMode ∧ t.ld.mode = s.ld.mode ∧ t.ld.pendingWeights = s.ld.pendingWeights ∧
  t.ld.weights = s.ld.weights ∧ t.ld.presets = s.ld.presets ∧ t.ld.channelMax = s.ld.channelMax ∧
  t.ld.pendingLevels = s.ld.pendingLevels ∧ t.ld.activeLevels = s.ld.activeLevels ∧
  t.ld.pendingPairs = s.ld.pendingPairs ∧ t.ld.activePairs = s.ld.activePairs ∧
  t.ld.pwmStart = s.ld.pwmStart ∧ t.ld.outputs = s.ld.outputs ∧ t.ld.hold = s.ld.hold

/-- The lamp driver is unchanged but for its pending weights, dwell state and standstill time. -/
@[simp] abbrev OnlyPicked (t s : State) : Prop :=
  t.ld.writtenMode = s.ld.writtenMode ∧ t.ld.mode = s.ld.mode ∧ t.ld.weights = s.ld.weights ∧
  t.ld.presets = s.ld.presets ∧ t.ld.channelMax = s.ld.channelMax ∧
  t.ld.pendingLevels = s.ld.pendingLevels ∧ t.ld.activeLevels = s.ld.activeLevels ∧
  t.ld.pendingPairs = s.ld.pendingPairs ∧ t.ld.activePairs = s.ld.activePairs ∧
  t.ld.pwmStart = s.ld.pwmStart ∧ t.ld.outputs = s.ld.outputs ∧ t.ld.hold = s.ld.hold

/-- The frame sequencer is unchanged but for its ring, phase and strobe window. -/
@[simp] abbrev OnlyRing (t s : State) : Prop :=
  t.fs.frameStart = s.fs.frameStart ∧ t.fs.frameDue = s.fs.frameDue ∧ t.fs.period = s.fs.period ∧
  t.fs.frameNumber = s.fs.frameNumber ∧ t.fs.reportMark = s.fs.reportMark ∧ t.fs.carried = s.fs.carried ∧
  t.fs.attitude = s.fs.attitude ∧ t.fs.pose = s.fs.pose

/-! ### Containers -/

@[simp] theorem PerPort.get_set_same (x : PerPort α) (p : Port) (v : α) : (x.set p v).get p = v := by
  cases p <;> rfl

@[simp] theorem PerPort.get_set_other (x : PerPort α) {p q : Port} (v : α) (h : p ≠ q) :
    (x.set p v).get q = x.get q := by
  cases p <;> cases q <;> first | rfl | exact absurd rfl h

theorem PerPort.get_set (x : PerPort α) (p q : Port) (v : α) :
    (x.set p v).get q = if p = q then v else x.get q := by
  cases p <;> cases q <;> rfl

@[simp] theorem PerPort.get_all (v : α) (p : Port) : (PerPort.all v).get p = v := by cases p <;> rfl

@[simp] theorem Four.get_set_same (x : Four α) (i : Fin 4) (v : α) : (x.set i v).get i = v := by
  fin_cases i <;> rfl

@[simp] theorem Four.get_set_other (x : Four α) {i j : Fin 4} (v : α) (h : i ≠ j) :
    (x.set i v).get j = x.get j := by
  fin_cases i <;> fin_cases j <;> first | rfl | exact absurd rfl h

@[simp] theorem Four.get_map (f : α → β) (x : Four α) (i : Fin 4) : (x.map f).get i = f (x.get i) := by
  fin_cases i <;> rfl

@[simp] theorem Four.get_all (v : α) (i : Fin 4) : (Four.all v).get i = v := by fin_cases i <;> rfl

/-! ### Filters and the line form of OVL -/

/-- A sample that shows the accepted level leaves no candidate (R1). -/
@[simp] theorem filterSample_accepted (level : Bool) (width : Nat) (c : Option Candidate) :
    filterSample level level width c = none := by simp [filterSample]

/-- A filter that is off accepts on the sample that starts the candidate (R1). -/
theorem filterSample_off {accepted level : Bool} (h : level ≠ accepted) :
    filterSample accepted level 0 none = some ⟨0, true⟩ := by simp [filterSample, h]

@[simp] theorem rejudge_none (width : Nat) : rejudge width none = none := rfl

@[simp] theorem rejudge_some (width : Nat) (c : Candidate) :
    rejudge width (some c) = some { c with ripe := c.ripe && decide (width ≤ c.age) } := rfl

@[simp] theorem serialBits_length (b : Byte) : (serialBits b).length = 10 := by simp [serialBits]

@[simp] theorem serialLevel_nil (bitTimes : Nat) : serialLevel [] bitTimes = true := rfl

@[simp] theorem spiBits_length (b : Byte) : (spiBits b).length = 8 := by simp [spiBits]

/-- The bits of a byte make that byte again (R167). -/
@[simp] theorem spiByte_spiBits (b : Byte) : spiByte (spiBits b) = b := by revert b; decide

@[simp] theorem GainWord.gwck_length (g : GainWord) : g.gwck.length = 24 := by simp [GainWord.gwck]

/-- The sensor gets its gain word and FSTART; nothing else changes (R83). -/
@[simp] theorem State.sendGain_frame (g : GainWord) (s : State) :
    SameBase (s.sendGain g) s ∧ (s.sendGain g).now = s.now ∧ (s.sendGain g).cu = s.cu ∧
    (s.sendGain g).wt = s.wt ∧ (s.sendGain g).ca = s.ca ∧ (s.sendGain g).fs = s.fs ∧
    (s.sendGain g).ld = s.ld ∧ (s.sendGain g).sq = s.sq ∧ (s.sendGain g).hc = s.hc ∧
    (s.sendGain g).jn = s.jn ∧ (s.sendGain g).pi = s.pi ∧ (s.sendGain g).li = s.li := by simp [State.sendGain]

@[simp] theorem State.sendGain_sp (g : GainWord) (s : State) :
    (s.sendGain g).sp = { s.sp with
      gainWord := some g, pulses := g.gwck ++ [.fstart], fstartPulses := s.sp.fstartPulses + 1 } := rfl

/-! ### Clock and events -/

@[simp] theorem State.reach_frame (t : Nat) (s : State) :
    SameBase (s.reach t) s ∧ (s.reach t).cu = s.cu ∧ (s.reach t).wt = s.wt ∧ (s.reach t).ca = s.ca ∧
    (s.reach t).fs = s.fs ∧ (s.reach t).ld = s.ld ∧ (s.reach t).sq = s.sq ∧ (s.reach t).hc = s.hc ∧
    (s.reach t).jn = s.jn ∧ (s.reach t).pi = s.pi ∧ (s.reach t).li = s.li ∧ (s.reach t).sp = s.sp := by simp [State.reach]

@[simp] theorem State.reach_now (t : Nat) (s : State) : (s.reach t).now = max s.now t := rfl

@[simp] theorem State.setEvent_frame (p : Port) (e : Event) (s : State) :
    SameBase (s.setEvent p e) s ∧ (s.setEvent p e).now = s.now ∧ (s.setEvent p e).cu = s.cu ∧
    (s.setEvent p e).wt = s.wt ∧ (s.setEvent p e).ca = s.ca ∧ (s.setEvent p e).fs = s.fs ∧
    (s.setEvent p e).ld = s.ld ∧ (s.setEvent p e).sq = s.sq ∧ (s.setEvent p e).hc = s.hc ∧
    (s.setEvent p e).jn = s.jn ∧ OnlyLatches (s.setEvent p e) s ∧ (s.setEvent p e).li = s.li ∧
    (s.setEvent p e).sp = s.sp := by simp [State.setEvent]

@[simp] theorem State.setEvent_latches (p : Port) (e : Event) (s : State) :
    (s.setEvent p e).pi.latches = s.pi.latches.set p (s.pi.latches.get p ||| e.bit) := rfl

@[simp] theorem State.setEventAll_frame (e : Event) (s : State) :
    SameBase (s.setEventAll e) s ∧ (s.setEventAll e).now = s.now ∧ (s.setEventAll e).cu = s.cu ∧
    (s.setEventAll e).wt = s.wt ∧ (s.setEventAll e).ca = s.ca ∧ (s.setEventAll e).fs = s.fs ∧
    (s.setEventAll e).ld = s.ld ∧ (s.setEventAll e).sq = s.sq ∧ (s.setEventAll e).hc = s.hc ∧
    (s.setEventAll e).jn = s.jn ∧ OnlyLatches (s.setEventAll e) s ∧ (s.setEventAll e).li = s.li ∧
    (s.setEventAll e).sp = s.sp := by simp [State.setEventAll]

/-- An event set on all three ports joins each latch (R173). -/
@[simp] theorem State.setEventAll_latch (e : Event) (p : Port) (s : State) :
    (s.setEventAll e).pi.latches.get p = s.pi.latches.get p ||| e.bit := by
  cases p <;> rfl

/-! ### Journal -/

@[simp] theorem State.countDrop_frame (s : State) :
    SameBase (s.countDrop) s ∧ (s.countDrop).now = s.now ∧ (s.countDrop).cu = s.cu ∧
    (s.countDrop).wt = s.wt ∧ (s.countDrop).ca = s.ca ∧ (s.countDrop).fs = s.fs ∧ (s.countDrop).ld = s.ld ∧
    (s.countDrop).sq = s.sq ∧ (s.countDrop).hc = s.hc ∧ OnlyRecords (s.countDrop) s ∧
    (s.countDrop).pi = s.pi ∧ (s.countDrop).li = s.li ∧ (s.countDrop).sp = s.sp := by simp [State.countDrop]

@[simp] theorem State.clearDrops_frame (s : State) :
    SameBase (s.clearDrops) s ∧ (s.clearDrops).now = s.now ∧ (s.clearDrops).cu = s.cu ∧
    (s.clearDrops).wt = s.wt ∧ (s.clearDrops).ca = s.ca ∧ (s.clearDrops).fs = s.fs ∧
    (s.clearDrops).ld = s.ld ∧ (s.clearDrops).sq = s.sq ∧ (s.clearDrops).hc = s.hc ∧
    OnlyRecords (s.clearDrops) s ∧ (s.clearDrops).pi = s.pi ∧ (s.clearDrops).li = s.li ∧
    (s.clearDrops).sp = s.sp := by simp [State.clearDrops]

@[simp] theorem State.notifyPort_frame (n : Nat) (p : Port) (s : State) :
    SameBase (s.notifyPort n p) s ∧ (s.notifyPort n p).now = s.now ∧ (s.notifyPort n p).cu = s.cu ∧
    (s.notifyPort n p).wt = s.wt ∧ (s.notifyPort n p).ca = s.ca ∧ (s.notifyPort n p).fs = s.fs ∧
    (s.notifyPort n p).ld = s.ld ∧ (s.notifyPort n p).sq = s.sq ∧ (s.notifyPort n p).hc = s.hc ∧
    (s.notifyPort n p).jn = s.jn ∧ OnlyLatches (s.notifyPort n p) s ∧ (s.notifyPort n p).li = s.li ∧
    (s.notifyPort n p).sp = s.sp := by
  unfold State.notifyPort
  try dsimp only
  (repeat' split) <;> simp

@[simp] theorem State.notifyStored_frame (n : Nat) (s : State) :
    SameBase (s.notifyStored n) s ∧ (s.notifyStored n).now = s.now ∧ (s.notifyStored n).cu = s.cu ∧
    (s.notifyStored n).wt = s.wt ∧ (s.notifyStored n).ca = s.ca ∧ (s.notifyStored n).fs = s.fs ∧
    (s.notifyStored n).ld = s.ld ∧ (s.notifyStored n).sq = s.sq ∧ (s.notifyStored n).hc = s.hc ∧
    (s.notifyStored n).jn = s.jn ∧ OnlyLatches (s.notifyStored n) s ∧ (s.notifyStored n).li = s.li ∧
    (s.notifyStored n).sp = s.sp := by simp [State.notifyStored]

@[simp] theorem State.storeRecord_frame (kept : List Record) (h : Header) (b : Body) (s : State) :
    SameBase (s.storeRecord kept h b) s ∧ (s.storeRecord kept h b).now = s.now ∧
    (s.storeRecord kept h b).cu = s.cu ∧ (s.storeRecord kept h b).wt = s.wt ∧
    (s.storeRecord kept h b).ca = s.ca ∧ (s.storeRecord kept h b).fs = s.fs ∧
    (s.storeRecord kept h b).ld = s.ld ∧ (s.storeRecord kept h b).sq = s.sq ∧
    (s.storeRecord kept h b).hc = s.hc ∧ OnlyRecords (s.storeRecord kept h b) s ∧
    OnlyLatches (s.storeRecord kept h b) s ∧ (s.storeRecord kept h b).li = s.li ∧
    (s.storeRecord kept h b).sp = s.sp := by
  simp [State.storeRecord]

@[simp] theorem State.storeRecord_jn (kept : List Record) (h : Header) (b : Body) (s : State) :
    (s.storeRecord kept h b).jn =
      { s.jn with store := kept ++ [Record.mk s.jn.next h b], next := s.jn.next + 1 } := by
  simp [State.storeRecord]

@[simp] theorem State.handRecord_frame (h : Header) (b : Body) (s : State) :
    SameBase (s.handRecord h b).1 s ∧ (s.handRecord h b).1.now = s.now ∧ (s.handRecord h b).1.cu = s.cu ∧
    (s.handRecord h b).1.wt = s.wt ∧ (s.handRecord h b).1.ca = s.ca ∧ (s.handRecord h b).1.fs = s.fs ∧
    (s.handRecord h b).1.ld = s.ld ∧ (s.handRecord h b).1.sq = s.sq ∧ (s.handRecord h b).1.hc = s.hc ∧
    OnlyRecords (s.handRecord h b).1 s ∧ OnlyLatches (s.handRecord h b).1 s ∧
    (s.handRecord h b).1.li = s.li ∧ (s.handRecord h b).1.sp = s.sp := by
  unfold State.handRecord
  try dsimp only
  (repeat' split) <;> simp

@[simp] theorem State.journal_frame (b : Body) (s : State) :
    SameBase (s.journal b) s ∧ (s.journal b).now = s.now ∧ (s.journal b).cu = s.cu ∧
    (s.journal b).wt = s.wt ∧ (s.journal b).ca = s.ca ∧ (s.journal b).fs = s.fs ∧ (s.journal b).ld = s.ld ∧
    (s.journal b).sq = s.sq ∧ (s.journal b).hc = s.hc ∧ OnlyRecords (s.journal b) s ∧
    OnlyLatches (s.journal b) s ∧ (s.journal b).li = s.li ∧ (s.journal b).sp = s.sp := by simp [State.journal]

end Sys2Proof.Machine
end

