-- ==== Sys2Proof/Laws/Blocks.lean ====
section
/-! SUPPORT. For each operation of a block, every field that it leaves unchanged, as simp lemmas: a proof
about one block cites these and never unfolds the operations of another. -/

namespace Sys2Proof.Machine

/-! ### Lamps -/

@[simp] theorem State.selectPreset_frame (k : Fin 4) (s : State) :
    SameBase (s.selectPreset k) s ∧ (s.selectPreset k).now = s.now ∧ (s.selectPreset k).cu = s.cu ∧
    (s.selectPreset k).wt = s.wt ∧ (s.selectPreset k).ca = s.ca ∧ (s.selectPreset k).fs = s.fs ∧
    OnlyPicked (s.selectPreset k) s ∧ (s.selectPreset k).sq = s.sq ∧ (s.selectPreset k).hc = s.hc ∧
    (s.selectPreset k).jn = s.jn ∧ (s.selectPreset k).pi = s.pi ∧ (s.selectPreset k).li = s.li ∧
    (s.selectPreset k).sp = s.sp := by simp [State.selectPreset]

@[simp] theorem State.wake_frame (s : State) :
    SameBase (s.wake) s ∧ (s.wake).now = s.now ∧ (s.wake).cu = s.cu ∧ (s.wake).wt = s.wt ∧
    (s.wake).ca = s.ca ∧ (s.wake).fs = s.fs ∧ OnlyDwell (s.wake) s ∧ (s.wake).sq = s.sq ∧
    (s.wake).hc = s.hc ∧ (s.wake).jn = s.jn ∧ (s.wake).pi = s.pi ∧ (s.wake).li = s.li ∧ (s.wake).sp = s.sp := by simp [State.wake]

@[simp] theorem State.startStandstill_frame (s : State) :
    SameBase (s.startStandstill) s ∧ (s.startStandstill).now = s.now ∧ (s.startStandstill).cu = s.cu ∧
    (s.startStandstill).wt = s.wt ∧ (s.startStandstill).ca = s.ca ∧ (s.startStandstill).fs = s.fs ∧
    OnlyDwell (s.startStandstill) s ∧ (s.startStandstill).sq = s.sq ∧ (s.startStandstill).hc = s.hc ∧
    (s.startStandstill).jn = s.jn ∧ (s.startStandstill).pi = s.pi ∧ (s.startStandstill).li = s.li ∧
    (s.startStandstill).sp = s.sp := by simp [State.startStandstill]

@[simp] theorem State.dwellAtGate_frame (old : Int) (s : State) :
    SameBase (s.dwellAtGate old) s ∧ (s.dwellAtGate old).now = s.now ∧ (s.dwellAtGate old).cu = s.cu ∧
    (s.dwellAtGate old).wt = s.wt ∧ (s.dwellAtGate old).ca = s.ca ∧ (s.dwellAtGate old).fs = s.fs ∧
    OnlyDwell (s.dwellAtGate old) s ∧ (s.dwellAtGate old).sq = s.sq ∧ (s.dwellAtGate old).hc = s.hc ∧
    (s.dwellAtGate old).jn = s.jn ∧ (s.dwellAtGate old).pi = s.pi ∧ (s.dwellAtGate old).li = s.li ∧
    (s.dwellAtGate old).sp = s.sp := by
  unfold State.dwellAtGate
  try dsimp only
  (repeat' split) <;> simp

@[simp] theorem State.dwellAtStill_frame (s : State) :
    SameBase (s.dwellAtStill) s ∧ (s.dwellAtStill).now = s.now ∧ (s.dwellAtStill).cu = s.cu ∧
    (s.dwellAtStill).wt = s.wt ∧ (s.dwellAtStill).ca = s.ca ∧ (s.dwellAtStill).fs = s.fs ∧
    OnlyDwell (s.dwellAtStill) s ∧ (s.dwellAtStill).sq = s.sq ∧ (s.dwellAtStill).hc = s.hc ∧
    (s.dwellAtStill).jn = s.jn ∧ (s.dwellAtStill).pi = s.pi ∧ (s.dwellAtStill).li = s.li ∧
    (s.dwellAtStill).sp = s.sp := by simp [State.dwellAtStill]

@[simp] theorem State.dwellTimeWritten_frame (s : State) :
    SameBase (s.dwellTimeWritten) s ∧ (s.dwellTimeWritten).now = s.now ∧ (s.dwellTimeWritten).cu = s.cu ∧
    (s.dwellTimeWritten).wt = s.wt ∧ (s.dwellTimeWritten).ca = s.ca ∧ (s.dwellTimeWritten).fs = s.fs ∧
    OnlyDwell (s.dwellTimeWritten) s ∧ (s.dwellTimeWritten).sq = s.sq ∧ (s.dwellTimeWritten).hc = s.hc ∧
    (s.dwellTimeWritten).jn = s.jn ∧ (s.dwellTimeWritten).pi = s.pi ∧ (s.dwellTimeWritten).li = s.li ∧
    (s.dwellTimeWritten).sp = s.sp := by
  unfold State.dwellTimeWritten
  try dsimp only
  (repeat' split) <;> simp

/-! ### Still queue and halt controller -/

@[simp] theorem State.joinStill_frame (e : StillEntry) (s : State) :
    SameBase (s.joinStill e) s ∧ (s.joinStill e).now = s.now ∧ (s.joinStill e).cu = s.cu ∧
    (s.joinStill e).wt = s.wt ∧ (s.joinStill e).ca = s.ca ∧ (s.joinStill e).fs = s.fs ∧
    (s.joinStill e).ld = s.ld ∧ (s.joinStill e).hc = s.hc ∧ (s.joinStill e).jn = s.jn ∧
    (s.joinStill e).pi = s.pi ∧ (s.joinStill e).li = s.li ∧ (s.joinStill e).sp = s.sp := by simp [State.joinStill]

@[simp] theorem State.insertHaltStill_frame (moving : Bool) (s : State) :
    SameBase (s.insertHaltStill moving) s ∧ (s.insertHaltStill moving).now = s.now ∧
    (s.insertHaltStill moving).cu = s.cu ∧ (s.insertHaltStill moving).wt = s.wt ∧
    (s.insertHaltStill moving).ca = s.ca ∧ (s.insertHaltStill moving).fs = s.fs ∧
    (s.insertHaltStill moving).ld = s.ld ∧ (s.insertHaltStill moving).hc = s.hc ∧
    OnlyRecords (s.insertHaltStill moving) s ∧ OnlyLatches (s.insertHaltStill moving) s ∧
    (s.insertHaltStill moving).li = s.li ∧ (s.insertHaltStill moving).sp = s.sp := by
  unfold State.insertHaltStill
  try dsimp only
  (repeat' split) <;> simp

@[simp] theorem State.setHalt_frame (h : HaltController) (s : State) :
    SameBase (s.setHalt h) s ∧ (s.setHalt h).now = s.now ∧ (s.setHalt h).cu = s.cu ∧
    (s.setHalt h).wt = s.wt ∧ (s.setHalt h).ca = s.ca ∧ (s.setHalt h).fs = s.fs ∧ (s.setHalt h).ld = s.ld ∧
    (s.setHalt h).sq = s.sq ∧ (s.setHalt h).jn = s.jn ∧ OnlyLatches (s.setHalt h) s ∧
    (s.setHalt h).li = s.li ∧ (s.setHalt h).sp = s.sp := by
  unfold State.setHalt
  dsimp only
  (repeat' split) <;> simp

@[simp] theorem State.setHalt_hc (h : HaltController) (s : State) : (s.setHalt h).hc = h := by
  unfold State.setHalt
  dsimp only
  split <;> rfl

@[simp] theorem State.setSeq_frame (q : Option HaltSeq) (s : State) :
    SameBase (s.setSeq q) s ∧ (s.setSeq q).now = s.now ∧ (s.setSeq q).cu = s.cu ∧ (s.setSeq q).wt = s.wt ∧
    (s.setSeq q).ca = s.ca ∧ (s.setSeq q).fs = s.fs ∧ OnlyDwell (s.setSeq q) s ∧ (s.setSeq q).sq = s.sq ∧
    (s.setSeq q).hc.linkHalt = s.hc.linkHalt ∧ (s.setSeq q).jn = s.jn ∧ OnlyLatches (s.setSeq q) s ∧
    (s.setSeq q).li = s.li ∧ (s.setSeq q).sp = s.sp := by
  unfold State.setSeq
  dsimp only
  (repeat' split) <;> simp

@[simp] theorem State.setSeq_seq (q : Option HaltSeq) (s : State) : (s.setSeq q).hc.seq = q := by
  unfold State.setSeq
  dsimp only
  (repeat' split) <;> simp [State.wake, State.startStandstill]

@[simp] theorem State.startHalt_frame (kind : HaltKind) (origin : HaltOrigin) (s : State) :
    SameBase (s.startHalt kind origin) s ∧ (s.startHalt kind origin).now = s.now ∧
    (s.startHalt kind origin).cu = s.cu ∧ (s.startHalt kind origin).wt = s.wt ∧
    (s.startHalt kind origin).ca = s.ca ∧ (s.startHalt kind origin).fs = s.fs ∧
    OnlyDwell (s.startHalt kind origin) s ∧ (s.startHalt kind origin).sq = s.sq ∧
    (s.startHalt kind origin).hc.linkHalt = s.hc.linkHalt ∧ OnlyRecords (s.startHalt kind origin) s ∧
    OnlyLatches (s.startHalt kind origin) s ∧ (s.startHalt kind origin).li = s.li ∧
    (s.startHalt kind origin).sp = s.sp := by simp [State.startHalt]

@[simp] theorem State.endHalt_frame (q : HaltSeq) (phase : HaltPhase) (requester : Option Cause) (s : State) :
    SameBase (s.endHalt q phase requester) s ∧ (s.endHalt q phase requester).now = s.now ∧
    (s.endHalt q phase requester).cu = s.cu ∧ (s.endHalt q phase requester).wt = s.wt ∧
    (s.endHalt q phase requester).ca = s.ca ∧ (s.endHalt q phase requester).fs = s.fs ∧
    OnlyDwell (s.endHalt q phase requester) s ∧ (s.endHalt q phase requester).sq = s.sq ∧
    (s.endHalt q phase requester).hc.linkHalt = s.hc.linkHalt ∧
    OnlyRecords (s.endHalt q phase requester) s ∧ OnlyLatches (s.endHalt q phase requester) s ∧
    (s.endHalt q phase requester).li = s.li ∧ (s.endHalt q phase requester).sp = s.sp := by simp [State.endHalt]

@[simp] theorem State.reachStanding_frame (q : HaltSeq) (s : State) :
    SameBase (s.reachStanding q) s ∧ (s.reachStanding q).now = s.now ∧ (s.reachStanding q).cu = s.cu ∧
    (s.reachStanding q).wt = s.wt ∧ (s.reachStanding q).ca = s.ca ∧ (s.reachStanding q).fs = s.fs ∧
    OnlyDwell (s.reachStanding q) s ∧ (s.reachStanding q).hc.linkHalt = s.hc.linkHalt ∧
    OnlyRecords (s.reachStanding q) s ∧ OnlyLatches (s.reachStanding q) s ∧ (s.reachStanding q).li = s.li ∧
    (s.reachStanding q).sp = s.sp := by
  unfold State.reachStanding
  try dsimp only
  (repeat' split) <;> simp

@[simp] theorem State.startSettle_frame (q : HaltSeq) (s : State) :
    SameBase (s.startSettle q) s ∧ (s.startSettle q).now = s.now ∧ (s.startSettle q).cu = s.cu ∧
    (s.startSettle q).wt = s.wt ∧ (s.startSettle q).ca = s.ca ∧ (s.startSettle q).fs = s.fs ∧
    OnlyDwell (s.startSettle q) s ∧ (s.startSettle q).hc.linkHalt = s.hc.linkHalt ∧
    OnlyRecords (s.startSettle q) s ∧ OnlyLatches (s.startSettle q) s ∧ (s.startSettle q).li = s.li ∧
    (s.startSettle q).sp = s.sp := by
  unfold State.startSettle
  try dsimp only
  (repeat' split) <;> simp

@[simp] theorem State.beginSettling_frame (q : HaltSeq) (s : State) :
    SameBase (s.beginSettling q) s ∧ (s.beginSettling q).now = s.now ∧ (s.beginSettling q).cu = s.cu ∧
    (s.beginSettling q).wt = s.wt ∧ (s.beginSettling q).ca = s.ca ∧ (s.beginSettling q).fs = s.fs ∧
    OnlyDwell (s.beginSettling q) s ∧ (s.beginSettling q).hc.linkHalt = s.hc.linkHalt ∧
    OnlyRecords (s.beginSettling q) s ∧ OnlyLatches (s.beginSettling q) s ∧ (s.beginSettling q).li = s.li ∧
    (s.beginSettling q).sp = s.sp := by
  unfold State.beginSettling
  try dsimp only
  (repeat' split) <;> simp

@[simp] theorem State.haltAtGate_frame (s : State) :
    SameBase (s.haltAtGate) s ∧ (s.haltAtGate).now = s.now ∧ (s.haltAtGate).cu = s.cu ∧
    (s.haltAtGate).wt = s.wt ∧ (s.haltAtGate).ca = s.ca ∧ (s.haltAtGate).fs = s.fs ∧
    OnlyDwell (s.haltAtGate) s ∧ (s.haltAtGate).hc.linkHalt = s.hc.linkHalt ∧
    OnlyRecords (s.haltAtGate) s ∧ OnlyLatches (s.haltAtGate) s ∧ (s.haltAtGate).li = s.li ∧
    (s.haltAtGate).sp = s.sp := by
  unfold State.haltAtGate
  try dsimp only
  (repeat' split) <;> simp

@[simp] theorem State.haltStillTaken_frame (s : State) :
    SameBase (s.haltStillTaken) s ∧ (s.haltStillTaken).now = s.now ∧ (s.haltStillTaken).cu = s.cu ∧
    (s.haltStillTaken).wt = s.wt ∧ (s.haltStillTaken).ca = s.ca ∧ (s.haltStillTaken).fs = s.fs ∧
    OnlyDwell (s.haltStillTaken) s ∧ (s.haltStillTaken).sq = s.sq ∧
    (s.haltStillTaken).hc.linkHalt = s.hc.linkHalt ∧ (s.haltStillTaken).jn = s.jn ∧
    OnlyLatches (s.haltStillTaken) s ∧ (s.haltStillTaken).li = s.li ∧ (s.haltStillTaken).sp = s.sp := by
  unfold State.haltStillTaken
  try dsimp only
  (repeat' split) <;> simp

@[simp] theorem State.haltStillExposed_frame (s : State) :
    SameBase (s.haltStillExposed) s ∧ (s.haltStillExposed).now = s.now ∧ (s.haltStillExposed).cu = s.cu ∧
    (s.haltStillExposed).wt = s.wt ∧ (s.haltStillExposed).ca = s.ca ∧ (s.haltStillExposed).fs = s.fs ∧
    OnlyDwell (s.haltStillExposed) s ∧ (s.haltStillExposed).sq = s.sq ∧
    (s.haltStillExposed).hc.linkHalt = s.hc.linkHalt ∧ OnlyRecords (s.haltStillExposed) s ∧
    OnlyLatches (s.haltStillExposed) s ∧ (s.haltStillExposed).li = s.li ∧ (s.haltStillExposed).sp = s.sp := by
  unfold State.haltStillExposed
  try dsimp only
  (repeat' split) <;> simp

@[simp] theorem State.haltTimedOut_frame (q : HaltSeq) (s : State) :
    SameBase (s.haltTimedOut q) s ∧ (s.haltTimedOut q).now = s.now ∧ (s.haltTimedOut q).cu = s.cu ∧
    (s.haltTimedOut q).wt = s.wt ∧ (s.haltTimedOut q).ca = s.ca ∧ (s.haltTimedOut q).fs = s.fs ∧
    OnlyDwell (s.haltTimedOut q) s ∧ (s.haltTimedOut q).hc.linkHalt = s.hc.linkHalt ∧
    OnlyRecords (s.haltTimedOut q) s ∧ OnlyLatches (s.haltTimedOut q) s ∧ (s.haltTimedOut q).li = s.li ∧
    (s.haltTimedOut q).sp = s.sp := by
  unfold State.haltTimedOut
  try dsimp only
  (repeat' split) <;> simp

/-! ### Waypoint table -/

@[simp] theorem State.setSlot_frame (i : Fin 16) (x : Slot) (s : State) :
    SameBase (s.setSlot i x) s ∧ (s.setSlot i x).now = s.now ∧ (s.setSlot i x).cu = s.cu ∧
    (s.setSlot i x).ca = s.ca ∧ (s.setSlot i x).fs = s.fs ∧ (s.setSlot i x).ld = s.ld ∧
    (s.setSlot i x).sq = s.sq ∧ (s.setSlot i x).hc = s.hc ∧ (s.setSlot i x).jn = s.jn ∧
    (s.setSlot i x).pi = s.pi ∧ (s.setSlot i x).li = s.li ∧ (s.setSlot i x).sp = s.sp := by simp [State.setSlot]

@[simp] theorem State.fireHalt_frame (i : Fin 16) (e : Waypoint) (n : Nat) (kind : HaltKind) (s : State) :
    SameBase (s.fireHalt i e n kind) s ∧ (s.fireHalt i e n kind).now = s.now ∧
    (s.fireHalt i e n kind).cu = s.cu ∧ (s.fireHalt i e n kind).wt = s.wt ∧
    (s.fireHalt i e n kind).ca = s.ca ∧ (s.fireHalt i e n kind).fs = s.fs ∧
    OnlyDwell (s.fireHalt i e n kind) s ∧ (s.fireHalt i e n kind).hc.linkHalt = s.hc.linkHalt ∧
    OnlyRecords (s.fireHalt i e n kind) s ∧ OnlyLatches (s.fireHalt i e n kind) s ∧
    (s.fireHalt i e n kind).li = s.li ∧ (s.fireHalt i e n kind).sp = s.sp := by
  unfold State.fireHalt
  try dsimp only
  (repeat' split) <;> simp

@[simp] theorem State.performAction_frame (i : Fin 16) (e : Waypoint) (n : Nat) (s : State) :
    SameBase (s.performAction i e n) s ∧ (s.performAction i e n).now = s.now ∧
    (s.performAction i e n).cu = s.cu ∧ (s.performAction i e n).wt = s.wt ∧
    (s.performAction i e n).ca = s.ca ∧ (s.performAction i e n).fs = s.fs ∧
    OnlyPicked (s.performAction i e n) s ∧ (s.performAction i e n).hc.linkHalt = s.hc.linkHalt ∧
    OnlyRecords (s.performAction i e n) s ∧ OnlyLatches (s.performAction i e n) s ∧
    (s.performAction i e n).li = s.li ∧ (s.performAction i e n).sp = s.sp := by
  unfold State.performAction
  try dsimp only
  (repeat' split) <;> simp

@[simp] theorem State.crossSlot_frame (c : Int) (i : Fin 16) (s : State) :
    SameBase (State.crossSlot c s i) s ∧ (State.crossSlot c s i).now = s.now ∧
    (State.crossSlot c s i).cu = s.cu ∧ (State.crossSlot c s i).ca = s.ca ∧
    (State.crossSlot c s i).fs = s.fs ∧ OnlyPicked (State.crossSlot c s i) s ∧
    (State.crossSlot c s i).hc.linkHalt = s.hc.linkHalt ∧ OnlyRecords (State.crossSlot c s i) s ∧
    OnlyLatches (State.crossSlot c s i) s ∧ (State.crossSlot c s i).li = s.li ∧
    (State.crossSlot c s i).sp = s.sp := by
  unfold State.crossSlot
  try dsimp only
  (repeat' split) <;> simp

theorem foldl_crossSlot_frame (c : Int) (is : List (Fin 16)) (s : State) :
    SameBase (is.foldl (State.crossSlot c) s) s ∧ (is.foldl (State.crossSlot c) s).now = s.now ∧
    (is.foldl (State.crossSlot c) s).cu = s.cu ∧ (is.foldl (State.crossSlot c) s).ca = s.ca ∧
    (is.foldl (State.crossSlot c) s).fs = s.fs ∧ OnlyPicked (is.foldl (State.crossSlot c) s) s ∧
    (is.foldl (State.crossSlot c) s).hc.linkHalt = s.hc.linkHalt ∧
    OnlyRecords (is.foldl (State.crossSlot c) s) s ∧ OnlyLatches (is.foldl (State.crossSlot c) s) s ∧
    (is.foldl (State.crossSlot c) s).li = s.li ∧ (is.foldl (State.crossSlot c) s).sp = s.sp := by
  induction is generalizing s with
  | nil => simp
  | cons i is ih => simpa using ih (State.crossSlot c s i)

@[simp] theorem State.crossWaypoints_frame (s : State) :
    SameBase (s.crossWaypoints) s ∧ (s.crossWaypoints).now = s.now ∧ (s.crossWaypoints).cu = s.cu ∧
    (s.crossWaypoints).ca = s.ca ∧ (s.crossWaypoints).fs = s.fs ∧ OnlyPicked (s.crossWaypoints) s ∧
    (s.crossWaypoints).hc.linkHalt = s.hc.linkHalt ∧ OnlyRecords (s.crossWaypoints) s ∧
    OnlyLatches (s.crossWaypoints) s ∧ (s.crossWaypoints).li = s.li ∧ (s.crossWaypoints).sp = s.sp := by
  unfold State.crossWaypoints
  exact foldl_crossSlot_frame _ _ s

@[simp] theorem State.recomputeSides_frame (s : State) :
    SameBase (s.recomputeSides) s ∧ (s.recomputeSides).now = s.now ∧ (s.recomputeSides).cu = s.cu ∧
    (s.recomputeSides).ca = s.ca ∧ (s.recomputeSides).fs = s.fs ∧ (s.recomputeSides).ld = s.ld ∧
    (s.recomputeSides).sq = s.sq ∧ (s.recomputeSides).hc = s.hc ∧ (s.recomputeSides).jn = s.jn ∧
    (s.recomputeSides).pi = s.pi ∧ (s.recomputeSides).li = s.li ∧ (s.recomputeSides).sp = s.sp := by simp [State.recomputeSides]

/-! ### Chainage unit -/

@[simp] theorem State.chooseTrust_frame (s : State) :
    SameBase (s.chooseTrust) s ∧ (s.chooseTrust).now = s.now ∧ (s.chooseTrust).wt = s.wt ∧
    (s.chooseTrust).ca = s.ca ∧ (s.chooseTrust).fs = s.fs ∧ (s.chooseTrust).ld = s.ld ∧
    (s.chooseTrust).sq = s.sq ∧ (s.chooseTrust).hc = s.hc ∧ (s.chooseTrust).jn = s.jn ∧
    (s.chooseTrust).pi = s.pi ∧ (s.chooseTrust).li = s.li ∧ (s.chooseTrust).sp = s.sp := by simp [State.chooseTrust]

@[simp] theorem State.journalState_frame (causes : StateCauses) (before : Agreement) (s : State) :
    SameBase (s.journalState causes before) s ∧ (s.journalState causes before).now = s.now ∧
    (s.journalState causes before).cu = s.cu ∧ (s.journalState causes before).wt = s.wt ∧
    (s.journalState causes before).ca = s.ca ∧ (s.journalState causes before).fs = s.fs ∧
    (s.journalState causes before).ld = s.ld ∧ (s.journalState causes before).sq = s.sq ∧
    (s.journalState causes before).hc = s.hc ∧ OnlyRecords (s.journalState causes before) s ∧
    OnlyLatches (s.journalState causes before) s ∧ (s.journalState causes before).li = s.li ∧
    (s.journalState causes before).sp = s.sp := by simp [State.journalState]

@[simp] theorem State.reopenWindow_frame (s : State) :
    SameBase (s.reopenWindow) s ∧ (s.reopenWindow).now = s.now ∧ (s.reopenWindow).wt = s.wt ∧
    (s.reopenWindow).ca = s.ca ∧ (s.reopenWindow).fs = s.fs ∧ (s.reopenWindow).ld = s.ld ∧
    (s.reopenWindow).sq = s.sq ∧ (s.reopenWindow).hc = s.hc ∧ (s.reopenWindow).jn = s.jn ∧
    (s.reopenWindow).pi = s.pi ∧ (s.reopenWindow).li = s.li ∧ (s.reopenWindow).sp = s.sp := by simp [State.reopenWindow]

@[simp] theorem State.closeWindow_frame (s : State) :
    SameBase (s.closeWindow) s ∧ (s.closeWindow).now = s.now ∧ (s.closeWindow).wt = s.wt ∧
    (s.closeWindow).ca = s.ca ∧ (s.closeWindow).fs = s.fs ∧ (s.closeWindow).ld = s.ld ∧
    (s.closeWindow).sq = s.sq ∧ (s.closeWindow).hc = s.hc ∧ OnlyRecords (s.closeWindow) s ∧
    OnlyLatches (s.closeWindow) s ∧ (s.closeWindow).li = s.li ∧ (s.closeWindow).sp = s.sp := by
  unfold State.closeWindow
  dsimp only
  (repeat' split) <;> simp

@[simp] theorem State.testWindow_frame (s : State) :
    SameBase (s.testWindow) s ∧ (s.testWindow).now = s.now ∧ (s.testWindow).wt = s.wt ∧
    (s.testWindow).ca = s.ca ∧ (s.testWindow).fs = s.fs ∧ (s.testWindow).ld = s.ld ∧
    (s.testWindow).sq = s.sq ∧ (s.testWindow).hc = s.hc ∧ OnlyRecords (s.testWindow) s ∧
    OnlyLatches (s.testWindow) s ∧ (s.testWindow).li = s.li ∧ (s.testWindow).sp = s.sp := by
  unfold State.testWindow
  dsimp only
  (repeat' split) <;> simp

@[simp] theorem State.advance_frame (mm : Int) (s : State) :
    SameBase (s.advance mm) s ∧ (s.advance mm).now = s.now ∧ (s.advance mm).ca = s.ca ∧
    (s.advance mm).fs = s.fs ∧ OnlyPicked (s.advance mm) s ∧ (s.advance mm).hc.linkHalt = s.hc.linkHalt ∧
    OnlyRecords (s.advance mm) s ∧ OnlyLatches (s.advance mm) s ∧ (s.advance mm).li = s.li ∧
    (s.advance mm).sp = s.sp := by
  unfold State.advance
  dsimp only
  (repeat' split) <;> simp

@[simp] theorem State.wheelIncrement_frame (mm : Int) (s : State) :
    SameBase (s.wheelIncrement mm) s ∧ (s.wheelIncrement mm).now = s.now ∧
    (s.wheelIncrement mm).ca = s.ca ∧ (s.wheelIncrement mm).fs = s.fs ∧
    OnlyPicked (s.wheelIncrement mm) s ∧ (s.wheelIncrement mm).hc.linkHalt = s.hc.linkHalt ∧
    OnlyRecords (s.wheelIncrement mm) s ∧ OnlyLatches (s.wheelIncrement mm) s ∧
    (s.wheelIncrement mm).li = s.li ∧ (s.wheelIncrement mm).sp = s.sp := by
  unfold State.wheelIncrement
  dsimp only
  (repeat' split) <;> simp

@[simp] theorem State.cableIncrement_frame (mm : Int) (s : State) :
    SameBase (s.cableIncrement mm) s ∧ (s.cableIncrement mm).now = s.now ∧
    (s.cableIncrement mm).ca = s.ca ∧ (s.cableIncrement mm).fs = s.fs ∧
    OnlyPicked (s.cableIncrement mm) s ∧ (s.cableIncrement mm).hc.linkHalt = s.hc.linkHalt ∧
    OnlyRecords (s.cableIncrement mm) s ∧ OnlyLatches (s.cableIncrement mm) s ∧
    (s.cableIncrement mm).li = s.li ∧ (s.cableIncrement mm).sp = s.sp := by
  unfold State.cableIncrement
  dsimp only
  (repeat' split) <;> simp

@[simp] theorem State.wheelStep_frame (forward : Bool) (s : State) :
    SameBase (s.wheelStep forward) s ∧ (s.wheelStep forward).now = s.now ∧
    (s.wheelStep forward).ca = s.ca ∧ (s.wheelStep forward).fs = s.fs ∧
    OnlyPicked (s.wheelStep forward) s ∧ (s.wheelStep forward).hc.linkHalt = s.hc.linkHalt ∧
    OnlyRecords (s.wheelStep forward) s ∧ OnlyLatches (s.wheelStep forward) s ∧
    (s.wheelStep forward).li = s.li ∧ (s.wheelStep forward).sp = s.sp := by
  unfold State.wheelStep
  dsimp only
  (repeat' split) <;> simp

@[simp] theorem State.illegalTransition_frame (s : State) :
    SameBase (s.illegalTransition) s ∧ (s.illegalTransition).now = s.now ∧
    (s.illegalTransition).wt = s.wt ∧ (s.illegalTransition).ca = s.ca ∧ (s.illegalTransition).fs = s.fs ∧
    (s.illegalTransition).ld = s.ld ∧ (s.illegalTransition).sq = s.sq ∧ (s.illegalTransition).hc = s.hc ∧
    OnlyRecords (s.illegalTransition) s ∧ OnlyLatches (s.illegalTransition) s ∧
    (s.illegalTransition).li = s.li ∧ (s.illegalTransition).sp = s.sp := by
  unfold State.illegalTransition
  dsimp only
  (repeat' split) <;> simp

@[simp] theorem State.acceptPair_frame (wa wb : Bool) (s : State) :
    SameBase (s.acceptPair wa wb) s ∧ (s.acceptPair wa wb).now = s.now ∧ (s.acceptPair wa wb).ca = s.ca ∧
    (s.acceptPair wa wb).fs = s.fs ∧ OnlyPicked (s.acceptPair wa wb) s ∧
    (s.acceptPair wa wb).hc.linkHalt = s.hc.linkHalt ∧ OnlyRecords (s.acceptPair wa wb) s ∧
    OnlyLatches (s.acceptPair wa wb) s ∧ (s.acceptPair wa wb).li = s.li ∧ (s.acceptPair wa wb).sp = s.sp := by
  unfold State.acceptPair
  dsimp only
  (repeat' split) <;> simp

@[simp] theorem State.loseCable_frame (s : State) :
    SameBase (s.loseCable) s ∧ (s.loseCable).now = s.now ∧ (s.loseCable).wt = s.wt ∧
    (s.loseCable).ca = s.ca ∧ (s.loseCable).fs = s.fs ∧ (s.loseCable).ld = s.ld ∧ (s.loseCable).sq = s.sq ∧
    (s.loseCable).hc = s.hc ∧ OnlyRecords (s.loseCable) s ∧ OnlyLatches (s.loseCable) s ∧
    (s.loseCable).li = s.li ∧ (s.loseCable).sp = s.sp := by simp [State.loseCable]

@[simp] theorem State.findCable_frame (s : State) :
    SameBase (s.findCable) s ∧ (s.findCable).now = s.now ∧ (s.findCable).wt = s.wt ∧
    (s.findCable).ca = s.ca ∧ (s.findCable).fs = s.fs ∧ (s.findCable).ld = s.ld ∧ (s.findCable).sq = s.sq ∧
    (s.findCable).hc = s.hc ∧ OnlyRecords (s.findCable) s ∧ OnlyLatches (s.findCable) s ∧
    (s.findCable).li = s.li ∧ (s.findCable).sp = s.sp := by simp [State.findCable]

@[simp] theorem State.applyReel_frame (count : Word32) (s : State) :
    SameBase (s.applyReel count) s ∧ (s.applyReel count).now = s.now ∧ (s.applyReel count).ca = s.ca ∧
    (s.applyReel count).fs = s.fs ∧ OnlyPicked (s.applyReel count) s ∧
    (s.applyReel count).hc.linkHalt = s.hc.linkHalt ∧ OnlyRecords (s.applyReel count) s ∧
    OnlyLatches (s.applyReel count) s ∧ (s.applyReel count).li = s.li ∧ (s.applyReel count).sp = s.sp := by
  unfold State.applyReel
  dsimp only
  (repeat' split) <;> simp

@[simp] theorem State.takeReel_frame (count : Word32) (s : State) :
    SameBase (s.takeReel count) s ∧ (s.takeReel count).now = s.now ∧ (s.takeReel count).ca = s.ca ∧
    (s.takeReel count).fs = s.fs ∧ OnlyPicked (s.takeReel count) s ∧
    (s.takeReel count).hc.linkHalt = s.hc.linkHalt ∧ OnlyRecords (s.takeReel count) s ∧
    OnlyLatches (s.takeReel count) s ∧ (s.takeReel count).li = s.li ∧ (s.takeReel count).sp = s.sp := by
  unfold State.takeReel
  dsimp only
  (repeat' split) <;> simp

@[simp] theorem State.rereference_frame (v : Int) (requester : Requester) (s : State) :
    SameBase (s.rereference v requester) s ∧ (s.rereference v requester).now = s.now ∧
    (s.rereference v requester).ca = s.ca ∧ (s.rereference v requester).fs = s.fs ∧
    (s.rereference v requester).ld = s.ld ∧ (s.rereference v requester).sq = s.sq ∧
    (s.rereference v requester).hc = s.hc ∧ OnlyRecords (s.rereference v requester) s ∧
    OnlyLatches (s.rereference v requester) s ∧ (s.rereference v requester).li = s.li ∧
    (s.rereference v requester).sp = s.sp := by simp [State.rereference]

@[simp] theorem State.closeRun_frame (implicit : Bool) (s : State) :
    SameBase (s.closeRun implicit) s ∧ (s.closeRun implicit).now = s.now ∧
    (s.closeRun implicit).wt = s.wt ∧ (s.closeRun implicit).ca = s.ca ∧ (s.closeRun implicit).fs = s.fs ∧
    (s.closeRun implicit).ld = s.ld ∧ (s.closeRun implicit).sq = s.sq ∧ (s.closeRun implicit).hc = s.hc ∧
    OnlyRecords (s.closeRun implicit) s ∧ OnlyLatches (s.closeRun implicit) s ∧
    (s.closeRun implicit).li = s.li ∧ (s.closeRun implicit).sp = s.sp := by simp [State.closeRun]

@[simp] theorem State.gate_frame (s : State) :
    SameBase (s.gate) s ∧ (s.gate).now = s.now ∧ (s.gate).wt = s.wt ∧ (s.gate).ca = s.ca ∧
    (s.gate).fs = s.fs ∧ (s.gate).ld = s.ld ∧ (s.gate).sq = s.sq ∧ (s.gate).hc = s.hc ∧
    (s.gate).jn = s.jn ∧ (s.gate).pi = s.pi ∧ (s.gate).li = s.li ∧ (s.gate).sp = s.sp := by simp [State.gate]

@[simp] theorem State.startRun_frame (offset : Int) (direction : Direction) (label : List Byte) (s : State) :
    SameBase (s.startRun offset direction label) s ∧ (s.startRun offset direction label).now = s.now ∧
    (s.startRun offset direction label).ca = s.ca ∧ (s.startRun offset direction label).fs = s.fs ∧
    (s.startRun offset direction label).ld = s.ld ∧ (s.startRun offset direction label).sq = s.sq ∧
    (s.startRun offset direction label).hc = s.hc ∧ OnlyRecords (s.startRun offset direction label) s ∧
    OnlyLatches (s.startRun offset direction label) s ∧ (s.startRun offset direction label).li = s.li ∧
    (s.startRun offset direction label).sp = s.sp := by
  unfold State.startRun
  dsimp only
  (repeat' split) <;> simp

/-! ### Current arbiter -/

@[simp] theorem State.setClaim_frame (p : Port) (c : Claim) (s : State) :
    SameBase (s.setClaim p c) s ∧ (s.setClaim p c).now = s.now ∧ (s.setClaim p c).cu = s.cu ∧
    (s.setClaim p c).wt = s.wt ∧ (s.setClaim p c).fs = s.fs ∧ (s.setClaim p c).ld = s.ld ∧
    (s.setClaim p c).sq = s.sq ∧ (s.setClaim p c).hc = s.hc ∧ (s.setClaim p c).jn = s.jn ∧
    (s.setClaim p c).pi = s.pi ∧ (s.setClaim p c).li = s.li ∧ (s.setClaim p c).sp = s.sp := by simp [State.setClaim]

@[simp] theorem State.grantClaim_frame (p : Port) (s : State) :
    SameBase (s.grantClaim p) s ∧ (s.grantClaim p).now = s.now ∧ (s.grantClaim p).cu = s.cu ∧
    (s.grantClaim p).wt = s.wt ∧ (s.grantClaim p).fs = s.fs ∧ (s.grantClaim p).ld = s.ld ∧
    (s.grantClaim p).sq = s.sq ∧ (s.grantClaim p).hc = s.hc ∧ (s.grantClaim p).jn = s.jn ∧
    OnlyLatches (s.grantClaim p) s ∧ (s.grantClaim p).li = s.li ∧ (s.grantClaim p).sp = s.sp := by simp [State.grantClaim]

@[simp] theorem State.serveQueue_frame (queue : List Port) (s : State) :
    SameBase (State.serveQueue queue s) s ∧ (State.serveQueue queue s).now = s.now ∧
    (State.serveQueue queue s).cu = s.cu ∧ (State.serveQueue queue s).wt = s.wt ∧
    (State.serveQueue queue s).fs = s.fs ∧ (State.serveQueue queue s).ld = s.ld ∧
    (State.serveQueue queue s).sq = s.sq ∧ (State.serveQueue queue s).hc = s.hc ∧
    (State.serveQueue queue s).jn = s.jn ∧ OnlyLatches (State.serveQueue queue s) s ∧
    (State.serveQueue queue s).li = s.li ∧ (State.serveQueue queue s).sp = s.sp := by
  induction queue generalizing s with
  | nil => simp [State.serveQueue]
  | cons p rest ih =>
    unfold State.serveQueue
    split
    · simpa using ih (s.grantClaim p)
    · simp

@[simp] theorem State.serve_frame (s : State) :
    SameBase (s.serve) s ∧ (s.serve).now = s.now ∧ (s.serve).cu = s.cu ∧ (s.serve).wt = s.wt ∧
    (s.serve).fs = s.fs ∧ (s.serve).ld = s.ld ∧ (s.serve).sq = s.sq ∧ (s.serve).hc = s.hc ∧
    (s.serve).jn = s.jn ∧ OnlyLatches (s.serve) s ∧ (s.serve).li = s.li ∧ (s.serve).sp = s.sp := by
  unfold State.serve
  try dsimp only
  (repeat' split) <;> simp

@[simp] theorem State.leaveQueue_frame (p : Port) (s : State) :
    SameBase (s.leaveQueue p) s ∧ (s.leaveQueue p).now = s.now ∧ (s.leaveQueue p).cu = s.cu ∧
    (s.leaveQueue p).wt = s.wt ∧ (s.leaveQueue p).fs = s.fs ∧ (s.leaveQueue p).ld = s.ld ∧
    (s.leaveQueue p).sq = s.sq ∧ (s.leaveQueue p).hc = s.hc ∧ (s.leaveQueue p).jn = s.jn ∧
    (s.leaveQueue p).pi = s.pi ∧ (s.leaveQueue p).li = s.li ∧ (s.leaveQueue p).sp = s.sp := by simp [State.leaveQueue]

@[simp] theorem State.takeClaim_frame (p : Port) (x : Nat) (s : State) :
    SameBase (s.takeClaim p x).1 s ∧ (s.takeClaim p x).1.now = s.now ∧ (s.takeClaim p x).1.cu = s.cu ∧
    (s.takeClaim p x).1.wt = s.wt ∧ (s.takeClaim p x).1.fs = s.fs ∧ (s.takeClaim p x).1.ld = s.ld ∧
    (s.takeClaim p x).1.sq = s.sq ∧ (s.takeClaim p x).1.hc = s.hc ∧ (s.takeClaim p x).1.jn = s.jn ∧
    OnlyLatches (s.takeClaim p x).1 s ∧ (s.takeClaim p x).1.li = s.li ∧ (s.takeClaim p x).1.sp = s.sp := by
  unfold State.takeClaim
  try dsimp only
  (repeat' split) <;> simp

@[simp] theorem State.expireClaim_frame (p : Port) (s : State) :
    SameBase (s.expireClaim p) s ∧ (s.expireClaim p).now = s.now ∧ (s.expireClaim p).cu = s.cu ∧
    (s.expireClaim p).wt = s.wt ∧ (s.expireClaim p).fs = s.fs ∧ (s.expireClaim p).ld = s.ld ∧
    (s.expireClaim p).sq = s.sq ∧ (s.expireClaim p).hc = s.hc ∧ (s.expireClaim p).jn = s.jn ∧
    OnlyLatches (s.expireClaim p) s ∧ (s.expireClaim p).li = s.li ∧ (s.expireClaim p).sp = s.sp := by simp [State.expireClaim]

@[simp] theorem State.handInCommit_frame (commit : Nat) (s : State) :
    SameBase (s.handInCommit commit) s ∧ (s.handInCommit commit).now = s.now ∧
    (s.handInCommit commit).cu = s.cu ∧ (s.handInCommit commit).wt = s.wt ∧
    (s.handInCommit commit).fs = s.fs ∧ (s.handInCommit commit).ld = s.ld ∧
    (s.handInCommit commit).sq = s.sq ∧ (s.handInCommit commit).hc = s.hc ∧
    (s.handInCommit commit).jn = s.jn ∧ OnlyLatches (s.handInCommit commit) s ∧
    (s.handInCommit commit).li = s.li ∧ (s.handInCommit commit).sp = s.sp := by
  unfold State.handInCommit
  try dsimp only
  (repeat' split) <;> simp

@[simp] theorem State.clearClaims_frame (s : State) :
    SameBase (s.clearClaims) s ∧ (s.clearClaims).now = s.now ∧ (s.clearClaims).cu = s.cu ∧
    (s.clearClaims).wt = s.wt ∧ (s.clearClaims).fs = s.fs ∧ (s.clearClaims).ld = s.ld ∧
    (s.clearClaims).sq = s.sq ∧ (s.clearClaims).hc = s.hc ∧ (s.clearClaims).jn = s.jn ∧
    (s.clearClaims).pi = s.pi ∧ (s.clearClaims).li = s.li ∧ (s.clearClaims).sp = s.sp := by simp [State.clearClaims]

/-! ### Frame sequencer -/

@[simp] theorem State.updateFrame_frame (change : FrameRecord → FrameRecord) (s : State) :
    SameBase (s.updateFrame change) s ∧ (s.updateFrame change).now = s.now ∧
    (s.updateFrame change).cu = s.cu ∧ (s.updateFrame change).wt = s.wt ∧
    (s.updateFrame change).ca = s.ca ∧ OnlyRing (s.updateFrame change) s ∧
    (s.updateFrame change).ld = s.ld ∧ (s.updateFrame change).sq = s.sq ∧
    (s.updateFrame change).hc = s.hc ∧ (s.updateFrame change).jn = s.jn ∧
    (s.updateFrame change).pi = s.pi ∧ (s.updateFrame change).li = s.li ∧ (s.updateFrame change).sp = s.sp := by
  unfold State.updateFrame
  try dsimp only
  (repeat' split) <;> simp

@[simp] theorem State.updateFrame_phase (change : FrameRecord → FrameRecord) (s : State) :
    (s.updateFrame change).fs.phase = s.fs.phase ∧
    (s.updateFrame change).fs.windowOpen = s.fs.windowOpen := by
  unfold State.updateFrame
  split <;> simp

@[simp] theorem State.shed_frame (s : State) :
    SameBase (s.shed) s ∧ (s.shed).now = s.now ∧ (s.shed).cu = s.cu ∧ (s.shed).wt = s.wt ∧
    (s.shed).ca = s.ca ∧ OnlyRing (s.shed) s ∧ (s.shed).ld = s.ld ∧ (s.shed).sq = s.sq ∧
    (s.shed).hc = s.hc ∧ (s.shed).jn = s.jn ∧ (s.shed).pi = s.pi ∧ (s.shed).li = s.li ∧ (s.shed).sp = s.sp := by simp [State.shed]

@[simp] theorem State.openWindow_frame (s : State) :
    SameBase (s.openWindow) s ∧ (s.openWindow).now = s.now ∧ (s.openWindow).cu = s.cu ∧
    (s.openWindow).wt = s.wt ∧ (s.openWindow).ca = s.ca ∧ OnlyRing (s.openWindow) s ∧
    (s.openWindow).ld = s.ld ∧ (s.openWindow).sq = s.sq ∧ (s.openWindow).hc = s.hc ∧
    (s.openWindow).jn = s.jn ∧ (s.openWindow).pi = s.pi ∧ (s.openWindow).li = s.li ∧
    (s.openWindow).sp = s.sp := by
  unfold State.openWindow
  dsimp only
  (repeat' split) <;> simp

@[simp] theorem State.strobe_frame (s : State) :
    SameBase (s.strobe) s ∧ (s.strobe).now = s.now ∧ (s.strobe).cu = s.cu ∧ (s.strobe).wt = s.wt ∧
    (s.strobe).ca = s.ca ∧ OnlyRing (s.strobe) s ∧ (s.strobe).sq = s.sq ∧ (s.strobe).hc = s.hc ∧
    (s.strobe).jn = s.jn ∧ (s.strobe).pi = s.pi ∧ (s.strobe).li = s.li ∧ (s.strobe).sp = s.sp := by
  unfold State.strobe
  dsimp only
  (repeat' split) <;> simp

@[simp] theorem State.expose_frame (s : State) :
    SameBase (s.expose) s ∧ (s.expose).now = s.now ∧ (s.expose).cu = s.cu ∧ (s.expose).wt = s.wt ∧
    (s.expose).ca = s.ca ∧ OnlyRing (s.expose) s ∧ (s.expose).ld = s.ld ∧ (s.expose).sq = s.sq ∧
    (s.expose).hc = s.hc ∧ (s.expose).jn = s.jn ∧ (s.expose).pi = s.pi ∧ (s.expose).li = s.li ∧
    (s.expose).sp = s.sp := by
  unfold State.expose
  dsimp only
  (repeat' split) <;> simp

@[simp] theorem State.latchFrame_frame (s : State) :
    SameBase (s.latchFrame) s ∧ (s.latchFrame).now = s.now ∧ (s.latchFrame).cu = s.cu ∧
    (s.latchFrame).wt = s.wt ∧ (s.latchFrame).ca = s.ca ∧ (s.latchFrame).sq = s.sq ∧
    (s.latchFrame).hc = s.hc ∧ (s.latchFrame).jn = s.jn ∧ (s.latchFrame).pi = s.pi ∧
    (s.latchFrame).li = s.li ∧ (s.latchFrame).sp = s.sp := by simp [State.latchFrame]

@[simp] theorem State.takeStill_frame (s : State) :
    SameBase (s.takeStill) s ∧ (s.takeStill).now = s.now ∧ (s.takeStill).cu = s.cu ∧
    (s.takeStill).wt = s.wt ∧ (s.takeStill).ca = s.ca ∧ (s.takeStill).fs = s.fs ∧
    OnlyDwell (s.takeStill) s ∧ (s.takeStill).hc.linkHalt = s.hc.linkHalt ∧ (s.takeStill).jn = s.jn ∧
    OnlyLatches (s.takeStill) s ∧ (s.takeStill).li = s.li ∧ (s.takeStill).sp = s.sp := by
  unfold State.takeStill
  split
  · simp
  · dsimp only
    (repeat' split) <;> simp

@[simp] theorem State.adoptWeights_frame (s : State) :
    SameBase (s.adoptWeights) s ∧ (s.adoptWeights).now = s.now ∧ (s.adoptWeights).cu = s.cu ∧
    (s.adoptWeights).wt = s.wt ∧ (s.adoptWeights).ca = s.ca ∧ (s.adoptWeights).fs = s.fs ∧
    (s.adoptWeights).sq = s.sq ∧ (s.adoptWeights).hc = s.hc ∧ (s.adoptWeights).jn = s.jn ∧
    (s.adoptWeights).pi = s.pi ∧ (s.adoptWeights).li = s.li ∧ (s.adoptWeights).sp = s.sp := by simp [State.adoptWeights]

@[simp] theorem State.driveFrame_frame (previous : LampMode) (number : Word32) (a : Allocated) (s : State) :
    SameBase (s.driveFrame previous number a) s ∧ (s.driveFrame previous number a).now = s.now ∧
    (s.driveFrame previous number a).cu = s.cu ∧ (s.driveFrame previous number a).wt = s.wt ∧
    (s.driveFrame previous number a).ca = s.ca ∧ (s.driveFrame previous number a).fs = s.fs ∧
    (s.driveFrame previous number a).sq = s.sq ∧ (s.driveFrame previous number a).hc = s.hc ∧
    (s.driveFrame previous number a).jn = s.jn ∧ (s.driveFrame previous number a).pi = s.pi ∧
    (s.driveFrame previous number a).li = s.li := by simp [State.driveFrame]

@[simp] theorem State.startPhase_frame (t : Nat) (s : State) :
    SameBase (s.startPhase t) s ∧ (s.startPhase t).now = s.now ∧ (s.startPhase t).cu = s.cu ∧
    (s.startPhase t).wt = s.wt ∧ (s.startPhase t).ca = s.ca ∧ OnlyRing (s.startPhase t) s ∧
    (s.startPhase t).sq = s.sq ∧ (s.startPhase t).hc = s.hc ∧ (s.startPhase t).jn = s.jn ∧
    (s.startPhase t).pi = s.pi ∧ (s.startPhase t).li = s.li ∧ (s.startPhase t).sp = s.sp := by
  unfold State.startPhase
  dsimp only
  (repeat' split) <;> simp

@[simp] theorem State.frameReady_frame (s : State) :
    SameBase (s.frameReady) s ∧ (s.frameReady).now = s.now ∧ (s.frameReady).cu = s.cu ∧
    (s.frameReady).wt = s.wt ∧ (s.frameReady).ca = s.ca ∧ (s.frameReady).hc.linkHalt = s.hc.linkHalt ∧
    (s.frameReady).jn = s.jn ∧ OnlyLatches (s.frameReady) s ∧ (s.frameReady).li = s.li ∧
    (s.frameReady).sp = s.sp := by simp [State.frameReady]

@[simp] theorem State.frameBegun_frame (s : State) :
    SameBase (s.frameBegun) s ∧ (s.frameBegun).now = s.now ∧ (s.frameBegun).cu = s.cu ∧
    (s.frameBegun).wt = s.wt ∧ (s.frameBegun).ca = s.ca ∧ (s.frameBegun).hc.linkHalt = s.hc.linkHalt ∧
    (s.frameBegun).jn = s.jn ∧ OnlyLatches (s.frameBegun) s ∧ (s.frameBegun).li = s.li ∧
    (s.frameBegun).sp = s.sp := by
  unfold State.frameBegun
  dsimp only
  (repeat' split) <;> simp

@[simp] theorem State.boundary_frame (s : State) :
    SameBase (s.boundary) s ∧ (s.boundary).now = s.now ∧ (s.boundary).cu = s.cu ∧ (s.boundary).wt = s.wt ∧
    (s.boundary).hc.linkHalt = s.hc.linkHalt ∧ (s.boundary).jn = s.jn ∧ OnlyLatches (s.boundary) s ∧
    (s.boundary).li = s.li := by simp [State.boundary]

@[simp] theorem State.emitFrame_frame (f : FrameRecord) (s : State) :
    SameBase (s.emitFrame f) s ∧ (s.emitFrame f).now = s.now ∧ (s.emitFrame f).cu = s.cu ∧
    (s.emitFrame f).wt = s.wt ∧ (s.emitFrame f).ca = s.ca ∧ (s.emitFrame f).fs = s.fs ∧
    (s.emitFrame f).ld = s.ld ∧ (s.emitFrame f).sq = s.sq ∧ (s.emitFrame f).hc = s.hc ∧
    OnlyRecords (s.emitFrame f) s ∧ OnlyLatches (s.emitFrame f) s ∧ (s.emitFrame f).li = s.li := by
  unfold State.emitFrame
  split
  · simp
  · dsimp only
    (repeat' split) <;> simp

@[simp] theorem State.endExposure_frame (f : FrameRecord) (s : State) :
    SameBase (s.endExposure f) s ∧ (s.endExposure f).now = s.now ∧ (s.endExposure f).cu = s.cu ∧
    (s.endExposure f).wt = s.wt ∧ (s.endExposure f).ca = s.ca ∧ OnlyRing (s.endExposure f) s ∧
    (s.endExposure f).sq = s.sq ∧ (s.endExposure f).hc.linkHalt = s.hc.linkHalt ∧
    OnlyRecords (s.endExposure f) s ∧ OnlyLatches (s.endExposure f) s ∧ (s.endExposure f).li = s.li := by
  unfold State.endExposure
  dsimp only
  (repeat' split) <;> simp

@[simp] theorem State.reportLuma_frame (tag : Byte) (luma : Nat) (s : State) :
    SameBase (s.reportLuma tag luma) s ∧ (s.reportLuma tag luma).now = s.now ∧
    (s.reportLuma tag luma).cu = s.cu ∧ (s.reportLuma tag luma).wt = s.wt ∧
    (s.reportLuma tag luma).ca = s.ca ∧ OnlyRing (s.reportLuma tag luma) s ∧
    (s.reportLuma tag luma).ld = s.ld ∧ (s.reportLuma tag luma).sq = s.sq ∧
    (s.reportLuma tag luma).hc = s.hc ∧ (s.reportLuma tag luma).jn = s.jn ∧
    (s.reportLuma tag luma).pi = s.pi ∧ (s.reportLuma tag luma).li = s.li ∧
    (s.reportLuma tag luma).sp = s.sp := by simp [State.reportLuma]

@[simp] theorem State.abandonFrame_frame (s : State) :
    SameBase (s.abandonFrame) s ∧ (s.abandonFrame).now = s.now ∧ (s.abandonFrame).cu = s.cu ∧
    (s.abandonFrame).wt = s.wt ∧ (s.abandonFrame).ca = s.ca ∧ (s.abandonFrame).ld = s.ld ∧
    (s.abandonFrame).sq = s.sq ∧ (s.abandonFrame).hc = s.hc ∧ (s.abandonFrame).jn = s.jn ∧
    (s.abandonFrame).pi = s.pi ∧ (s.abandonFrame).li = s.li ∧ (s.abandonFrame).sp = s.sp := by simp [State.abandonFrame]

@[simp] theorem State.assertSag_frame (s : State) :
    SameBase (s.assertSag) s ∧ (s.assertSag).now = s.now ∧ (s.assertSag).cu = s.cu ∧
    (s.assertSag).wt = s.wt ∧ OnlyRing (s.assertSag) s ∧ (s.assertSag).sq = s.sq ∧
    (s.assertSag).hc = s.hc ∧ OnlyRecords (s.assertSag) s ∧ OnlyLatches (s.assertSag) s ∧
    (s.assertSag).li = s.li ∧ (s.assertSag).sp = s.sp := by
  unfold State.assertSag
  dsimp only
  (repeat' split) <;> simp

@[simp] theorem State.releaseSag_frame (start : Nat) (s : State) :
    SameBase (s.releaseSag start) s ∧ (s.releaseSag start).now = s.now ∧ (s.releaseSag start).cu = s.cu ∧
    (s.releaseSag start).wt = s.wt ∧ (s.releaseSag start).fs = s.fs ∧ (s.releaseSag start).ld = s.ld ∧
    (s.releaseSag start).sq = s.sq ∧ (s.releaseSag start).hc = s.hc ∧ OnlyRecords (s.releaseSag start) s ∧
    OnlyLatches (s.releaseSag start) s ∧ (s.releaseSag start).li = s.li ∧ (s.releaseSag start).sp = s.sp := by simp [State.releaseSag]

/-! ### RESTART -/

@[simp] theorem State.reseed_frame (s : State) :
    SameBase (s.reseed) s ∧ (s.reseed).now = s.now ∧ (s.reseed).wt = s.wt ∧ (s.reseed).ca = s.ca ∧
    (s.reseed).fs = s.fs ∧ (s.reseed).ld = s.ld ∧ (s.reseed).sq = s.sq ∧ (s.reseed).hc = s.hc ∧
    OnlyRecords (s.reseed) s ∧ OnlyLatches (s.reseed) s ∧ (s.reseed).li = s.li ∧ (s.reseed).sp = s.sp := by
  unfold State.reseed
  dsimp only
  (repeat' split) <;> simp

@[simp] theorem State.dropHaltAndStills_frame (s : State) :
    SameBase (s.dropHaltAndStills) s ∧ (s.dropHaltAndStills).now = s.now ∧
    (s.dropHaltAndStills).cu = s.cu ∧ (s.dropHaltAndStills).wt = s.wt ∧ (s.dropHaltAndStills).ca = s.ca ∧
    (s.dropHaltAndStills).fs = s.fs ∧ OnlyDwell (s.dropHaltAndStills) s ∧
    (s.dropHaltAndStills).hc.linkHalt = s.hc.linkHalt ∧ (s.dropHaltAndStills).jn = s.jn ∧
    OnlyLatches (s.dropHaltAndStills) s ∧ (s.dropHaltAndStills).li = s.li ∧ (s.dropHaltAndStills).sp = s.sp := by simp [State.dropHaltAndStills]

@[simp] theorem State.restartLamps_frame (s : State) :
    SameBase (s.restartLamps) s ∧ (s.restartLamps).now = s.now ∧ (s.restartLamps).cu = s.cu ∧
    (s.restartLamps).wt = s.wt ∧ (s.restartLamps).ca = s.ca ∧ (s.restartLamps).fs = s.fs ∧
    (s.restartLamps).sq = s.sq ∧ (s.restartLamps).hc = s.hc ∧ (s.restartLamps).jn = s.jn ∧
    (s.restartLamps).pi = s.pi ∧ (s.restartLamps).li = s.li ∧ (s.restartLamps).sp = s.sp := by simp [State.restartLamps]

@[simp] theorem State.emptyLatches_frame (s : State) :
    SameBase (s.emptyLatches) s ∧ (s.emptyLatches).now = s.now ∧ (s.emptyLatches).cu = s.cu ∧
    (s.emptyLatches).wt = s.wt ∧ (s.emptyLatches).ca = s.ca ∧ (s.emptyLatches).fs = s.fs ∧
    (s.emptyLatches).ld = s.ld ∧ (s.emptyLatches).sq = s.sq ∧ (s.emptyLatches).hc = s.hc ∧
    (s.emptyLatches).jn = s.jn ∧ OnlyLatches (s.emptyLatches) s ∧ (s.emptyLatches).li = s.li ∧
    (s.emptyLatches).sp = s.sp := by simp [State.emptyLatches]

@[simp] theorem State.restart_frame (reseed : Bool) (s : State) :
    SameBase (s.restart reseed) s ∧ (s.restart reseed).now = s.now ∧
    (s.restart reseed).hc.linkHalt = s.hc.linkHalt ∧ OnlyRecords (s.restart reseed) s ∧
    OnlyLatches (s.restart reseed) s ∧ (s.restart reseed).li = s.li ∧ (s.restart reseed).sp = s.sp := by
  unfold State.restart
  dsimp only
  (repeat' split) <;> simp

/-! ### Lines, link and ports -/

@[simp] theorem State.loseLink_frame (s : State) :
    SameBase (s.loseLink) s ∧ (s.loseLink).now = s.now ∧ (s.loseLink).cu = s.cu ∧ (s.loseLink).wt = s.wt ∧
    (s.loseLink).ca = s.ca ∧ (s.loseLink).fs = s.fs ∧ (s.loseLink).ld = s.ld ∧ (s.loseLink).sq = s.sq ∧
    (s.loseLink).jn = s.jn ∧ (s.loseLink).li = s.li ∧ (s.loseLink).sp = s.sp := by simp [State.loseLink]

@[simp] theorem State.hearSurface_frame (s : State) :
    SameBase (s.hearSurface) s ∧ (s.hearSurface).now = s.now ∧ (s.hearSurface).cu = s.cu ∧
    (s.hearSurface).wt = s.wt ∧ (s.hearSurface).ca = s.ca ∧ (s.hearSurface).fs = s.fs ∧
    (s.hearSurface).ld = s.ld ∧ (s.hearSurface).sq = s.sq ∧ (s.hearSurface).jn = s.jn ∧
    (s.hearSurface).li = s.li ∧ (s.hearSurface).sp = s.sp := by
  unfold State.hearSurface
  dsimp only
  (repeat' split) <;> simp

@[simp] theorem State.setReceiver_frame (p : Port) (r : Receiver) (s : State) :
    SameBase (s.setReceiver p r) s ∧ (s.setReceiver p r).now = s.now ∧ (s.setReceiver p r).cu = s.cu ∧
    (s.setReceiver p r).wt = s.wt ∧ (s.setReceiver p r).ca = s.ca ∧ (s.setReceiver p r).fs = s.fs ∧
    (s.setReceiver p r).ld = s.ld ∧ (s.setReceiver p r).sq = s.sq ∧ (s.setReceiver p r).hc = s.hc ∧
    (s.setReceiver p r).jn = s.jn ∧ (s.setReceiver p r).li = s.li ∧ (s.setReceiver p r).sp = s.sp := by simp [State.setReceiver]

@[simp] theorem State.putSlot_frame (b : BusPort) (x : AnswerSlot) (s : State) :
    SameBase (s.putSlot b x) s ∧ (s.putSlot b x).now = s.now ∧ (s.putSlot b x).cu = s.cu ∧
    (s.putSlot b x).wt = s.wt ∧ (s.putSlot b x).ca = s.ca ∧ (s.putSlot b x).fs = s.fs ∧
    (s.putSlot b x).ld = s.ld ∧ (s.putSlot b x).sq = s.sq ∧ (s.putSlot b x).hc = s.hc ∧
    (s.putSlot b x).jn = s.jn ∧ (s.putSlot b x).li = s.li ∧ (s.putSlot b x).sp = s.sp := by cases b <;> simp [State.putSlot]

@[simp] theorem State.queueAnswer_frame (a : Answer) (s : State) :
    SameBase (s.queueAnswer a) s ∧ (s.queueAnswer a).now = s.now ∧ (s.queueAnswer a).cu = s.cu ∧
    (s.queueAnswer a).wt = s.wt ∧ (s.queueAnswer a).ca = s.ca ∧ (s.queueAnswer a).fs = s.fs ∧
    (s.queueAnswer a).ld = s.ld ∧ (s.queueAnswer a).sq = s.sq ∧ (s.queueAnswer a).hc = s.hc ∧
    (s.queueAnswer a).jn = s.jn ∧ (s.queueAnswer a).li = s.li ∧ (s.queueAnswer a).sp = s.sp := by simp [State.queueAnswer]

@[simp] theorem State.acceptLine_frame (n : Fin 4) (level : Bool) (s : State) :
    SameBase (s.acceptLine n level) s ∧ (s.acceptLine n level).now = s.now ∧
    (s.acceptLine n level).cu = s.cu ∧ (s.acceptLine n level).wt = s.wt ∧
    (s.acceptLine n level).ca = s.ca ∧ (s.acceptLine n level).fs = s.fs ∧
    (s.acceptLine n level).ld = s.ld ∧ (s.acceptLine n level).sq = s.sq ∧
    (s.acceptLine n level).hc = s.hc ∧ (s.acceptLine n level).jn = s.jn ∧
    (s.acceptLine n level).pi = s.pi ∧ (s.acceptLine n level).sp = s.sp := by simp [State.acceptLine]

@[simp] theorem State.lineStill_frame (n : Fin 4) (s : State) :
    SameBase (s.lineStill n) s ∧ (s.lineStill n).now = s.now ∧ (s.lineStill n).cu = s.cu ∧
    (s.lineStill n).wt = s.wt ∧ (s.lineStill n).ca = s.ca ∧ (s.lineStill n).fs = s.fs ∧
    (s.lineStill n).ld = s.ld ∧ (s.lineStill n).hc = s.hc ∧ OnlyRecords (s.lineStill n) s ∧
    OnlyLatches (s.lineStill n) s ∧ (s.lineStill n).li = s.li ∧ (s.lineStill n).sp = s.sp := by
  unfold State.lineStill
  try dsimp only
  (repeat' split) <;> simp

@[simp] theorem State.lineResume_frame (n : Fin 4) (s : State) :
    SameBase (s.lineResume n) s ∧ (s.lineResume n).now = s.now ∧ (s.lineResume n).cu = s.cu ∧
    (s.lineResume n).wt = s.wt ∧ (s.lineResume n).ca = s.ca ∧ (s.lineResume n).fs = s.fs ∧
    OnlyDwell (s.lineResume n) s ∧ (s.lineResume n).sq = s.sq ∧
    (s.lineResume n).hc.linkHalt = s.hc.linkHalt ∧ OnlyRecords (s.lineResume n) s ∧
    OnlyLatches (s.lineResume n) s ∧ (s.lineResume n).li = s.li ∧ (s.lineResume n).sp = s.sp := by
  unfold State.lineResume
  try dsimp only
  (repeat' split) <;> simp

@[simp] theorem State.lineFunction_frame (n : Fin 4) (s : State) :
    SameBase (s.lineFunction n) s ∧ (s.lineFunction n).now = s.now ∧ (s.lineFunction n).ca = s.ca ∧
    (s.lineFunction n).fs = s.fs ∧ OnlyDwell (s.lineFunction n) s ∧
    (s.lineFunction n).hc.linkHalt = s.hc.linkHalt ∧ OnlyRecords (s.lineFunction n) s ∧
    OnlyLatches (s.lineFunction n) s ∧ (s.lineFunction n).li = s.li ∧ (s.lineFunction n).sp = s.sp := by
  unfold State.lineFunction
  try dsimp only
  (repeat' split) <;> simp

@[simp] theorem State.activeEdge_frame (n : Fin 4) (s : State) :
    SameBase (s.activeEdge n) s ∧ (s.activeEdge n).now = s.now ∧ (s.activeEdge n).ca = s.ca ∧
    (s.activeEdge n).fs = s.fs ∧ OnlyDwell (s.activeEdge n) s ∧
    (s.activeEdge n).hc.linkHalt = s.hc.linkHalt ∧ OnlyRecords (s.activeEdge n) s ∧
    OnlyLatches (s.activeEdge n) s ∧ (s.activeEdge n).sp = s.sp := by simp [State.activeEdge]

@[simp] theorem State.inactiveChange_frame (n : Fin 4) (s : State) :
    SameBase (s.inactiveChange n) s ∧ (s.inactiveChange n).now = s.now ∧ (s.inactiveChange n).cu = s.cu ∧
    (s.inactiveChange n).wt = s.wt ∧ (s.inactiveChange n).ca = s.ca ∧ (s.inactiveChange n).fs = s.fs ∧
    (s.inactiveChange n).ld = s.ld ∧ (s.inactiveChange n).sq = s.sq ∧ (s.inactiveChange n).hc = s.hc ∧
    (s.inactiveChange n).jn = s.jn ∧ (s.inactiveChange n).pi = s.pi ∧ (s.inactiveChange n).sp = s.sp := by simp [State.inactiveChange]

end Sys2Proof.Machine
end

