-- ==== Sys2Proof/Laws/Commands.lean ====
section
/-! SUPPORT. For the act of each request and for each event of the part, every field that it leaves
unchanged. -/

namespace Sys2Proof.Machine

/-! ### Acts of the requests -/

@[simp] theorem actZero_frame (p : Port) (a : Int) (s : State) :
    SameBase (actZero p a s).1 s ∧ (actZero p a s).1.now = s.now ∧ (actZero p a s).1.ca = s.ca ∧
    (actZero p a s).1.fs = s.fs ∧ (actZero p a s).1.ld = s.ld ∧ (actZero p a s).1.sq = s.sq ∧
    (actZero p a s).1.hc = s.hc ∧ OnlyRecords (actZero p a s).1 s ∧ OnlyLatches (actZero p a s).1 s ∧
    (actZero p a s).1.li = s.li ∧ (actZero p a s).1.sp = s.sp := by simp [actZero]

@[simp] theorem actSetChainage_frame (p : Port) (a : Int × Half) (s : State) :
    SameBase (actSetChainage p a s).1 s ∧ (actSetChainage p a s).1.now = s.now ∧
    (actSetChainage p a s).1.ca = s.ca ∧ (actSetChainage p a s).1.fs = s.fs ∧
    (actSetChainage p a s).1.ld = s.ld ∧ (actSetChainage p a s).1.sq = s.sq ∧
    (actSetChainage p a s).1.hc = s.hc ∧ OnlyRecords (actSetChainage p a s).1 s ∧
    OnlyLatches (actSetChainage p a s).1 s ∧ (actSetChainage p a s).1.li = s.li ∧
    (actSetChainage p a s).1.sp = s.sp := by
  unfold actSetChainage
  try dsimp only
  (repeat' split) <;> simp

@[simp] theorem actRunStart_frame (p : Port) (a : Int × Byte × List Byte) (s : State) :
    SameBase (actRunStart p a s).1 s ∧ (actRunStart p a s).1.now = s.now ∧
    (actRunStart p a s).1.ca = s.ca ∧ (actRunStart p a s).1.fs = s.fs ∧ (actRunStart p a s).1.ld = s.ld ∧
    (actRunStart p a s).1.sq = s.sq ∧ (actRunStart p a s).1.hc = s.hc ∧
    OnlyRecords (actRunStart p a s).1 s ∧ OnlyLatches (actRunStart p a s).1 s ∧
    (actRunStart p a s).1.li = s.li ∧ (actRunStart p a s).1.sp = s.sp := by
  unfold actRunStart
  try dsimp only
  (repeat' split) <;> simp

@[simp] theorem actRunEnd_frame (p : Port) (a : Unit) (s : State) :
    SameBase (actRunEnd p a s).1 s ∧ (actRunEnd p a s).1.now = s.now ∧ (actRunEnd p a s).1.wt = s.wt ∧
    (actRunEnd p a s).1.ca = s.ca ∧ (actRunEnd p a s).1.fs = s.fs ∧ (actRunEnd p a s).1.ld = s.ld ∧
    (actRunEnd p a s).1.sq = s.sq ∧ (actRunEnd p a s).1.hc = s.hc ∧ OnlyRecords (actRunEnd p a s).1 s ∧
    OnlyLatches (actRunEnd p a s).1 s ∧ (actRunEnd p a s).1.li = s.li ∧ (actRunEnd p a s).1.sp = s.sp := by
  unfold actRunEnd
  try dsimp only
  (repeat' split) <;> simp

@[simp] theorem actReelReport_frame (p : Port) (a : Word32) (s : State) :
    SameBase (actReelReport p a s).1 s ∧ (actReelReport p a s).1.now = s.now ∧
    (actReelReport p a s).1.ca = s.ca ∧ (actReelReport p a s).1.fs = s.fs ∧
    OnlyPicked (actReelReport p a s).1 s ∧ (actReelReport p a s).1.hc.linkHalt = s.hc.linkHalt ∧
    OnlyRecords (actReelReport p a s).1 s ∧ OnlyLatches (actReelReport p a s).1 s ∧
    (actReelReport p a s).1.li = s.li ∧ (actReelReport p a s).1.sp = s.sp := by simp [actReelReport]

@[simp] theorem actClaim_frame (p : Port) (a : Half) (s : State) :
    SameBase (actClaim p a s).1 s ∧ (actClaim p a s).1.now = s.now ∧ (actClaim p a s).1.cu = s.cu ∧
    (actClaim p a s).1.wt = s.wt ∧ (actClaim p a s).1.fs = s.fs ∧ (actClaim p a s).1.ld = s.ld ∧
    (actClaim p a s).1.sq = s.sq ∧ (actClaim p a s).1.hc = s.hc ∧ (actClaim p a s).1.jn = s.jn ∧
    OnlyLatches (actClaim p a s).1 s ∧ (actClaim p a s).1.li = s.li ∧ (actClaim p a s).1.sp = s.sp := by simp [actClaim]

@[simp] theorem actPlace_frame (p : Port) (a : PlaceArgs) (s : State) :
    SameBase (actPlace p a s).1 s ∧ (actPlace p a s).1.now = s.now ∧ (actPlace p a s).1.cu = s.cu ∧
    (actPlace p a s).1.ca = s.ca ∧ (actPlace p a s).1.fs = s.fs ∧ (actPlace p a s).1.ld = s.ld ∧
    (actPlace p a s).1.sq = s.sq ∧ (actPlace p a s).1.hc = s.hc ∧ (actPlace p a s).1.jn = s.jn ∧
    (actPlace p a s).1.pi = s.pi ∧ (actPlace p a s).1.li = s.li ∧ (actPlace p a s).1.sp = s.sp := by
  unfold actPlace
  try dsimp only
  (repeat' split) <;> simp

@[simp] theorem actClear_frame (p : Port) (a : Byte) (s : State) :
    SameBase (actClear p a s).1 s ∧ (actClear p a s).1.now = s.now ∧ (actClear p a s).1.cu = s.cu ∧
    (actClear p a s).1.ca = s.ca ∧ (actClear p a s).1.fs = s.fs ∧ (actClear p a s).1.ld = s.ld ∧
    (actClear p a s).1.sq = s.sq ∧ (actClear p a s).1.hc = s.hc ∧ (actClear p a s).1.jn = s.jn ∧
    (actClear p a s).1.pi = s.pi ∧ (actClear p a s).1.li = s.li ∧ (actClear p a s).1.sp = s.sp := by
  unfold actClear
  try dsimp only
  (repeat' split) <;> simp

@[simp] theorem actRead_frame (p : Port) (a : Byte) (s : State) :
    SameBase (actRead p a s).1 s ∧ (actRead p a s).1.now = s.now ∧ (actRead p a s).1.cu = s.cu ∧
    (actRead p a s).1.wt = s.wt ∧ (actRead p a s).1.ca = s.ca ∧ (actRead p a s).1.fs = s.fs ∧
    (actRead p a s).1.ld = s.ld ∧ (actRead p a s).1.sq = s.sq ∧ (actRead p a s).1.hc = s.hc ∧
    (actRead p a s).1.jn = s.jn ∧ (actRead p a s).1.pi = s.pi ∧ (actRead p a s).1.li = s.li ∧
    (actRead p a s).1.sp = s.sp := by
  unfold actRead
  try dsimp only
  (repeat' split) <;> simp

@[simp] theorem actStill_frame (p : Port) (a : Option Half) (s : State) :
    SameBase (actStill p a s).1 s ∧ (actStill p a s).1.now = s.now ∧ (actStill p a s).1.cu = s.cu ∧
    (actStill p a s).1.wt = s.wt ∧ (actStill p a s).1.ca = s.ca ∧ (actStill p a s).1.fs = s.fs ∧
    (actStill p a s).1.ld = s.ld ∧ (actStill p a s).1.hc = s.hc ∧ (actStill p a s).1.jn = s.jn ∧
    (actStill p a s).1.pi = s.pi ∧ (actStill p a s).1.li = s.li ∧ (actStill p a s).1.sp = s.sp := by
  unfold actStill
  try dsimp only
  (repeat' split) <;> simp

@[simp] theorem actHalt_frame (p : Port) (a : Unit) (s : State) :
    SameBase (actHalt p a s).1 s ∧ (actHalt p a s).1.now = s.now ∧ (actHalt p a s).1.cu = s.cu ∧
    (actHalt p a s).1.wt = s.wt ∧ (actHalt p a s).1.ca = s.ca ∧ (actHalt p a s).1.fs = s.fs ∧
    OnlyDwell (actHalt p a s).1 s ∧ (actHalt p a s).1.sq = s.sq ∧
    (actHalt p a s).1.hc.linkHalt = s.hc.linkHalt ∧ OnlyRecords (actHalt p a s).1 s ∧
    OnlyLatches (actHalt p a s).1 s ∧ (actHalt p a s).1.li = s.li ∧ (actHalt p a s).1.sp = s.sp := by
  unfold actHalt
  try dsimp only
  (repeat' split) <;> simp

@[simp] theorem actHaltAck_frame (p : Port) (a : Unit) (s : State) :
    SameBase (actHaltAck p a s).1 s ∧ (actHaltAck p a s).1.now = s.now ∧ (actHaltAck p a s).1.cu = s.cu ∧
    (actHaltAck p a s).1.wt = s.wt ∧ (actHaltAck p a s).1.ca = s.ca ∧ (actHaltAck p a s).1.fs = s.fs ∧
    OnlyDwell (actHaltAck p a s).1 s ∧ (actHaltAck p a s).1.hc.linkHalt = s.hc.linkHalt ∧
    OnlyRecords (actHaltAck p a s).1 s ∧ OnlyLatches (actHaltAck p a s).1 s ∧
    (actHaltAck p a s).1.li = s.li ∧ (actHaltAck p a s).1.sp = s.sp := by
  unfold actHaltAck
  try dsimp only
  (repeat' split) <;> simp

@[simp] theorem actResume_frame (p : Port) (a : Unit) (s : State) :
    SameBase (actResume p a s).1 s ∧ (actResume p a s).1.now = s.now ∧ (actResume p a s).1.cu = s.cu ∧
    (actResume p a s).1.wt = s.wt ∧ (actResume p a s).1.ca = s.ca ∧ (actResume p a s).1.fs = s.fs ∧
    OnlyDwell (actResume p a s).1 s ∧ (actResume p a s).1.sq = s.sq ∧
    (actResume p a s).1.hc.linkHalt = s.hc.linkHalt ∧ OnlyRecords (actResume p a s).1 s ∧
    OnlyLatches (actResume p a s).1 s ∧ (actResume p a s).1.li = s.li ∧ (actResume p a s).1.sp = s.sp := by
  unfold actResume
  try dsimp only
  (repeat' split) <;> simp

@[simp] theorem actLampMode_frame (p : Port) (a : Byte) (s : State) :
    SameBase (actLampMode p a s).1 s ∧ (actLampMode p a s).1.now = s.now ∧
    (actLampMode p a s).1.cu = s.cu ∧ (actLampMode p a s).1.wt = s.wt ∧ (actLampMode p a s).1.ca = s.ca ∧
    (actLampMode p a s).1.fs = s.fs ∧ (actLampMode p a s).1.sq = s.sq ∧ (actLampMode p a s).1.hc = s.hc ∧
    (actLampMode p a s).1.jn = s.jn ∧ (actLampMode p a s).1.pi = s.pi ∧ (actLampMode p a s).1.li = s.li ∧
    (actLampMode p a s).1.sp = s.sp := by
  unfold actLampMode
  try dsimp only
  (repeat' split) <;> simp

@[simp] theorem actLampWeights_frame (p : Port) (a : Four Nat) (s : State) :
    SameBase (actLampWeights p a s).1 s ∧ (actLampWeights p a s).1.now = s.now ∧
    (actLampWeights p a s).1.cu = s.cu ∧ (actLampWeights p a s).1.wt = s.wt ∧
    (actLampWeights p a s).1.ca = s.ca ∧ (actLampWeights p a s).1.fs = s.fs ∧
    OnlyPicked (actLampWeights p a s).1 s ∧ (actLampWeights p a s).1.sq = s.sq ∧
    (actLampWeights p a s).1.hc = s.hc ∧ (actLampWeights p a s).1.jn = s.jn ∧
    (actLampWeights p a s).1.pi = s.pi ∧ (actLampWeights p a s).1.li = s.li ∧
    (actLampWeights p a s).1.sp = s.sp := by
  unfold actLampWeights
  try dsimp only
  (repeat' split) <;> simp

@[simp] theorem actPresetWrite_frame (p : Port) (a : Byte × Four Nat) (s : State) :
    SameBase (actPresetWrite p a s).1 s ∧ (actPresetWrite p a s).1.now = s.now ∧
    (actPresetWrite p a s).1.cu = s.cu ∧ (actPresetWrite p a s).1.wt = s.wt ∧
    (actPresetWrite p a s).1.ca = s.ca ∧ (actPresetWrite p a s).1.fs = s.fs ∧
    (actPresetWrite p a s).1.sq = s.sq ∧ (actPresetWrite p a s).1.hc = s.hc ∧
    (actPresetWrite p a s).1.jn = s.jn ∧ (actPresetWrite p a s).1.pi = s.pi ∧
    (actPresetWrite p a s).1.li = s.li ∧ (actPresetWrite p a s).1.sp = s.sp := by
  unfold actPresetWrite
  try dsimp only
  (repeat' split) <;> simp

@[simp] theorem actPresetSelect_frame (p : Port) (a : Byte) (s : State) :
    SameBase (actPresetSelect p a s).1 s ∧ (actPresetSelect p a s).1.now = s.now ∧
    (actPresetSelect p a s).1.cu = s.cu ∧ (actPresetSelect p a s).1.wt = s.wt ∧
    (actPresetSelect p a s).1.ca = s.ca ∧ (actPresetSelect p a s).1.fs = s.fs ∧
    OnlyPicked (actPresetSelect p a s).1 s ∧ (actPresetSelect p a s).1.sq = s.sq ∧
    (actPresetSelect p a s).1.hc = s.hc ∧ (actPresetSelect p a s).1.jn = s.jn ∧
    (actPresetSelect p a s).1.pi = s.pi ∧ (actPresetSelect p a s).1.li = s.li ∧
    (actPresetSelect p a s).1.sp = s.sp := by
  unfold actPresetSelect
  try dsimp only
  (repeat' split) <;> simp

@[simp] theorem actAttitude_frame (p : Port) (a : Int × Int) (s : State) :
    SameBase (actAttitude p a s).1 s ∧ (actAttitude p a s).1.now = s.now ∧
    (actAttitude p a s).1.cu = s.cu ∧ (actAttitude p a s).1.wt = s.wt ∧ (actAttitude p a s).1.ca = s.ca ∧
    (actAttitude p a s).1.ld = s.ld ∧ (actAttitude p a s).1.sq = s.sq ∧ (actAttitude p a s).1.hc = s.hc ∧
    (actAttitude p a s).1.jn = s.jn ∧ (actAttitude p a s).1.pi = s.pi ∧ (actAttitude p a s).1.li = s.li ∧
    (actAttitude p a s).1.sp = s.sp := by simp [actAttitude]

@[simp] theorem actPose_frame (p : Port) (a : Int × Int × Nat) (s : State) :
    SameBase (actPose p a s).1 s ∧ (actPose p a s).1.now = s.now ∧ (actPose p a s).1.cu = s.cu ∧
    (actPose p a s).1.wt = s.wt ∧ (actPose p a s).1.ca = s.ca ∧ (actPose p a s).1.ld = s.ld ∧
    (actPose p a s).1.sq = s.sq ∧ (actPose p a s).1.hc = s.hc ∧ (actPose p a s).1.jn = s.jn ∧
    (actPose p a s).1.pi = s.pi ∧ (actPose p a s).1.li = s.li ∧ (actPose p a s).1.sp = s.sp := by simp [actPose]

@[simp] theorem State.setCursor_frame (p : Port) (n : Nat) (s : State) :
    SameBase (s.setCursor p n) s ∧ (s.setCursor p n).now = s.now ∧ (s.setCursor p n).cu = s.cu ∧
    (s.setCursor p n).wt = s.wt ∧ (s.setCursor p n).ca = s.ca ∧ (s.setCursor p n).fs = s.fs ∧
    (s.setCursor p n).ld = s.ld ∧ (s.setCursor p n).sq = s.sq ∧ (s.setCursor p n).hc = s.hc ∧
    (s.setCursor p n).pi = s.pi ∧ (s.setCursor p n).li = s.li ∧ (s.setCursor p n).sp = s.sp := by simp [State.setCursor]

@[simp] theorem State.setBinding_frame (p : Port) (bound : Bool) (s : State) :
    SameBase (s.setBinding p bound) s ∧ (s.setBinding p bound).now = s.now ∧
    (s.setBinding p bound).cu = s.cu ∧ (s.setBinding p bound).wt = s.wt ∧
    (s.setBinding p bound).ca = s.ca ∧ (s.setBinding p bound).fs = s.fs ∧
    (s.setBinding p bound).ld = s.ld ∧ (s.setBinding p bound).sq = s.sq ∧
    (s.setBinding p bound).hc = s.hc ∧ (s.setBinding p bound).pi = s.pi ∧
    (s.setBinding p bound).li = s.li ∧ (s.setBinding p bound).sp = s.sp := by simp [State.setBinding]

@[simp] theorem State.answerGap_frame (p : Port) (lost : Nat) (s : State) :
    SameBase (s.answerGap p lost).1 s ∧ (s.answerGap p lost).1.now = s.now ∧
    (s.answerGap p lost).1.cu = s.cu ∧ (s.answerGap p lost).1.wt = s.wt ∧
    (s.answerGap p lost).1.ca = s.ca ∧ (s.answerGap p lost).1.fs = s.fs ∧
    (s.answerGap p lost).1.ld = s.ld ∧ (s.answerGap p lost).1.sq = s.sq ∧
    (s.answerGap p lost).1.hc = s.hc ∧ (s.answerGap p lost).1.pi = s.pi ∧
    (s.answerGap p lost).1.li = s.li ∧ (s.answerGap p lost).1.sp = s.sp := by simp [State.answerGap]

@[simp] theorem actNext_frame (p : Port) (a : Unit) (s : State) :
    SameBase (actNext p a s).1 s ∧ (actNext p a s).1.now = s.now ∧ (actNext p a s).1.cu = s.cu ∧
    (actNext p a s).1.wt = s.wt ∧ (actNext p a s).1.ca = s.ca ∧ (actNext p a s).1.fs = s.fs ∧
    (actNext p a s).1.ld = s.ld ∧ (actNext p a s).1.sq = s.sq ∧ (actNext p a s).1.hc = s.hc ∧
    (actNext p a s).1.pi = s.pi ∧ (actNext p a s).1.li = s.li ∧ (actNext p a s).1.sp = s.sp := by
  unfold actNext
  try dsimp only
  (repeat' split) <;> simp

@[simp] theorem actBulk_frame (p : Port) (a : Unit) (s : State) :
    SameBase (actBulk p a s).1 s ∧ (actBulk p a s).1.now = s.now ∧ (actBulk p a s).1.cu = s.cu ∧
    (actBulk p a s).1.wt = s.wt ∧ (actBulk p a s).1.ca = s.ca ∧ (actBulk p a s).1.fs = s.fs ∧
    (actBulk p a s).1.ld = s.ld ∧ (actBulk p a s).1.sq = s.sq ∧ (actBulk p a s).1.hc = s.hc ∧
    (actBulk p a s).1.pi = s.pi ∧ (actBulk p a s).1.li = s.li ∧ (actBulk p a s).1.sp = s.sp := by
  unfold actBulk
  try dsimp only
  (repeat' split) <;> simp

@[simp] theorem actSeek_frame (p : Port) (a : Word32) (s : State) :
    SameBase (actSeek p a s).1 s ∧ (actSeek p a s).1.now = s.now ∧ (actSeek p a s).1.cu = s.cu ∧
    (actSeek p a s).1.wt = s.wt ∧ (actSeek p a s).1.ca = s.ca ∧ (actSeek p a s).1.fs = s.fs ∧
    (actSeek p a s).1.ld = s.ld ∧ (actSeek p a s).1.sq = s.sq ∧ (actSeek p a s).1.hc = s.hc ∧
    (actSeek p a s).1.pi = s.pi ∧ (actSeek p a s).1.li = s.li ∧ (actSeek p a s).1.sp = s.sp := by
  unfold actSeek
  try dsimp only
  (repeat' split) <;> simp

@[simp] theorem actRewind_frame (p : Port) (a : Unit) (s : State) :
    SameBase (actRewind p a s).1 s ∧ (actRewind p a s).1.now = s.now ∧ (actRewind p a s).1.cu = s.cu ∧
    (actRewind p a s).1.wt = s.wt ∧ (actRewind p a s).1.ca = s.ca ∧ (actRewind p a s).1.fs = s.fs ∧
    (actRewind p a s).1.ld = s.ld ∧ (actRewind p a s).1.sq = s.sq ∧ (actRewind p a s).1.hc = s.hc ∧
    (actRewind p a s).1.pi = s.pi ∧ (actRewind p a s).1.li = s.li ∧ (actRewind p a s).1.sp = s.sp := by simp [actRewind]

@[simp] theorem actBinding_frame (bound : Bool) (p : Port) (a : Unit) (s : State) :
    SameBase (actBinding bound p a s).1 s ∧ (actBinding bound p a s).1.now = s.now ∧
    (actBinding bound p a s).1.cu = s.cu ∧ (actBinding bound p a s).1.wt = s.wt ∧
    (actBinding bound p a s).1.ca = s.ca ∧ (actBinding bound p a s).1.fs = s.fs ∧
    (actBinding bound p a s).1.ld = s.ld ∧ (actBinding bound p a s).1.sq = s.sq ∧
    (actBinding bound p a s).1.hc = s.hc ∧ (actBinding bound p a s).1.pi = s.pi ∧
    (actBinding bound p a s).1.li = s.li ∧ (actBinding bound p a s).1.sp = s.sp := by simp [actBinding]

@[simp] theorem actClearJournal_frame (p : Port) (a : Unit) (s : State) :
    SameBase (actClearJournal p a s).1 s ∧ (actClearJournal p a s).1.now = s.now ∧
    (actClearJournal p a s).1.cu = s.cu ∧ (actClearJournal p a s).1.wt = s.wt ∧
    (actClearJournal p a s).1.ca = s.ca ∧ (actClearJournal p a s).1.fs = s.fs ∧
    (actClearJournal p a s).1.ld = s.ld ∧ (actClearJournal p a s).1.sq = s.sq ∧
    (actClearJournal p a s).1.hc = s.hc ∧ (actClearJournal p a s).1.pi = s.pi ∧
    (actClearJournal p a s).1.li = s.li ∧ (actClearJournal p a s).1.sp = s.sp := by simp [actClearJournal, State.clearJournal]

@[simp] theorem actJournalMode_frame (p : Port) (a : Byte) (s : State) :
    SameBase (actJournalMode p a s).1 s ∧ (actJournalMode p a s).1.now = s.now ∧
    (actJournalMode p a s).1.cu = s.cu ∧ (actJournalMode p a s).1.wt = s.wt ∧
    (actJournalMode p a s).1.ca = s.ca ∧ (actJournalMode p a s).1.fs = s.fs ∧
    (actJournalMode p a s).1.ld = s.ld ∧ (actJournalMode p a s).1.sq = s.sq ∧
    (actJournalMode p a s).1.hc = s.hc ∧ (actJournalMode p a s).1.pi = s.pi ∧
    (actJournalMode p a s).1.li = s.li ∧ (actJournalMode p a s).1.sp = s.sp := by
  unfold actJournalMode
  try dsimp only
  (repeat' split) <;> simp

@[simp] theorem State.journalForRequest_frame (b : Body) (s : State) :
    SameBase (s.journalForRequest b).1 s ∧ (s.journalForRequest b).1.now = s.now ∧
    (s.journalForRequest b).1.cu = s.cu ∧ (s.journalForRequest b).1.wt = s.wt ∧
    (s.journalForRequest b).1.ca = s.ca ∧ (s.journalForRequest b).1.fs = s.fs ∧
    (s.journalForRequest b).1.ld = s.ld ∧ (s.journalForRequest b).1.sq = s.sq ∧
    (s.journalForRequest b).1.hc = s.hc ∧ OnlyRecords (s.journalForRequest b).1 s ∧
    OnlyLatches (s.journalForRequest b).1 s ∧ (s.journalForRequest b).1.li = s.li ∧
    (s.journalForRequest b).1.sp = s.sp := by simp [State.journalForRequest]

@[simp] theorem actMark_frame (p : Port) (a : Half) (s : State) :
    SameBase (actMark p a s).1 s ∧ (actMark p a s).1.now = s.now ∧ (actMark p a s).1.cu = s.cu ∧
    (actMark p a s).1.wt = s.wt ∧ (actMark p a s).1.ca = s.ca ∧ (actMark p a s).1.fs = s.fs ∧
    (actMark p a s).1.ld = s.ld ∧ (actMark p a s).1.sq = s.sq ∧ (actMark p a s).1.hc = s.hc ∧
    OnlyRecords (actMark p a s).1 s ∧ OnlyLatches (actMark p a s).1 s ∧ (actMark p a s).1.li = s.li ∧
    (actMark p a s).1.sp = s.sp := by simp [actMark]

@[simp] theorem actNote_frame (p : Port) (a : List Byte) (s : State) :
    SameBase (actNote p a s).1 s ∧ (actNote p a s).1.now = s.now ∧ (actNote p a s).1.cu = s.cu ∧
    (actNote p a s).1.wt = s.wt ∧ (actNote p a s).1.ca = s.ca ∧ (actNote p a s).1.fs = s.fs ∧
    (actNote p a s).1.ld = s.ld ∧ (actNote p a s).1.sq = s.sq ∧ (actNote p a s).1.hc = s.hc ∧
    OnlyRecords (actNote p a s).1 s ∧ OnlyLatches (actNote p a s).1 s ∧ (actNote p a s).1.li = s.li ∧
    (actNote p a s).1.sp = s.sp := by simp [actNote]

@[simp] theorem State.rejudgePhases_frame (s : State) :
    SameBase s.rejudgePhases s ∧ s.rejudgePhases.now = s.now ∧ s.rejudgePhases.wt = s.wt ∧
    s.rejudgePhases.ca = s.ca ∧ s.rejudgePhases.fs = s.fs ∧ s.rejudgePhases.ld = s.ld ∧
    s.rejudgePhases.sq = s.sq ∧ s.rejudgePhases.hc = s.hc ∧ s.rejudgePhases.jn = s.jn ∧
    s.rejudgePhases.pi = s.pi ∧ s.rejudgePhases.li = s.li ∧ s.rejudgePhases.sp = s.sp := by
  simp [State.rejudgePhases]

@[simp] theorem State.rejudgePhases_cu (s : State) :
    s.rejudgePhases.cu = { s.cu with
      candA := rejudge s.cfg.glitchWidth s.cu.candA
      candB := rejudge s.cfg.glitchWidth s.cu.candB } := rfl

@[simp] theorem State.rejudgeLine_frame (n : Fin 4) (s : State) :
    SameBase (s.rejudgeLine n) s ∧ (s.rejudgeLine n).now = s.now ∧ (s.rejudgeLine n).cu = s.cu ∧
    (s.rejudgeLine n).wt = s.wt ∧ (s.rejudgeLine n).ca = s.ca ∧ (s.rejudgeLine n).fs = s.fs ∧
    (s.rejudgeLine n).ld = s.ld ∧ (s.rejudgeLine n).sq = s.sq ∧ (s.rejudgeLine n).hc = s.hc ∧
    (s.rejudgeLine n).jn = s.jn ∧ (s.rejudgeLine n).pi = s.pi ∧
    (s.rejudgeLine n).li.accepted = s.li.accepted ∧ (s.rejudgeLine n).sp = s.sp := by
  simp [State.rejudgeLine]

@[simp] theorem State.rejudgeLine_cands (n : Fin 4) (s : State) :
    (s.rejudgeLine n).li.cands =
      s.li.cands.set n (rejudge (s.cfg.lineWidth n) (s.li.cands.get n)) := rfl

/-- What an act of a setting leaves unchanged. -/
@[simp] theorem State.actOnSetting_frame (code : Nat) (s : State) :
    SameBase (s.actOnSetting code) s ∧ (s.actOnSetting code).now = s.now ∧
    (s.actOnSetting code).wt = s.wt ∧ (s.actOnSetting code).fs = s.fs ∧ OnlyDwell (s.actOnSetting code) s ∧
    (s.actOnSetting code).sq = s.sq ∧ (s.actOnSetting code).hc = s.hc ∧
    OnlyRecords (s.actOnSetting code) s ∧ OnlyLatches (s.actOnSetting code) s ∧
    (s.actOnSetting code).li.accepted = s.li.accepted ∧ (s.actOnSetting code).sp = s.sp := by
  unfold State.actOnSetting
  (repeat' split) <;> simp

/-- CONFIG SET changes the settings and what they act on at once; every other field stays. -/
@[simp] theorem actConfigSet_frame (p : Port) (a : Byte × Int) (s : State) :
    (actConfigSet p a s).1.resetLine = s.resetLine ∧ (actConfigSet p a s).1.pins = s.pins ∧
    (actConfigSet p a s).1.inputs = s.inputs ∧ (actConfigSet p a s).1.pending = s.pending ∧
    (actConfigSet p a s).1.now = s.now ∧ (actConfigSet p a s).1.wt = s.wt ∧
    (actConfigSet p a s).1.fs = s.fs ∧ OnlyDwell (actConfigSet p a s).1 s ∧
    (actConfigSet p a s).1.sq = s.sq ∧ (actConfigSet p a s).1.hc = s.hc ∧
    OnlyRecords (actConfigSet p a s).1 s ∧ OnlyLatches (actConfigSet p a s).1 s ∧
    (actConfigSet p a s).1.li.accepted = s.li.accepted ∧ (actConfigSet p a s).1.sp = s.sp := by
  unfold actConfigSet
  (repeat' split) <;> simp

@[simp] theorem actConfigGet_frame (p : Port) (a : Byte) (s : State) :
    SameBase (actConfigGet p a s).1 s ∧ (actConfigGet p a s).1.now = s.now ∧
    (actConfigGet p a s).1.cu = s.cu ∧ (actConfigGet p a s).1.wt = s.wt ∧
    (actConfigGet p a s).1.ca = s.ca ∧ (actConfigGet p a s).1.fs = s.fs ∧
    (actConfigGet p a s).1.ld = s.ld ∧ (actConfigGet p a s).1.sq = s.sq ∧
    (actConfigGet p a s).1.hc = s.hc ∧ (actConfigGet p a s).1.jn = s.jn ∧
    (actConfigGet p a s).1.pi = s.pi ∧ (actConfigGet p a s).1.li = s.li ∧ (actConfigGet p a s).1.sp = s.sp := by
  unfold actConfigGet
  try dsimp only
  (repeat' split) <;> simp

@[simp] theorem actStatus_frame (p : Port) (a : Unit) (s : State) :
    SameBase (actStatus p a s).1 s ∧ (actStatus p a s).1.now = s.now ∧ (actStatus p a s).1.cu = s.cu ∧
    (actStatus p a s).1.wt = s.wt ∧ (actStatus p a s).1.ca = s.ca ∧ (actStatus p a s).1.fs = s.fs ∧
    (actStatus p a s).1.ld = s.ld ∧ (actStatus p a s).1.sq = s.sq ∧ (actStatus p a s).1.hc = s.hc ∧
    (actStatus p a s).1.jn = s.jn ∧ (actStatus p a s).1.pi = s.pi ∧ (actStatus p a s).1.li = s.li ∧
    (actStatus p a s).1.sp = s.sp := by simp [actStatus]

@[simp] theorem actEvents_frame (p : Port) (mask : Half) (s : State) :
    SameBase (actEvents p mask s).1 s ∧ (actEvents p mask s).1.now = s.now ∧
    (actEvents p mask s).1.cu = s.cu ∧ (actEvents p mask s).1.wt = s.wt ∧
    (actEvents p mask s).1.ca = s.ca ∧ (actEvents p mask s).1.fs = s.fs ∧
    (actEvents p mask s).1.ld = s.ld ∧ (actEvents p mask s).1.sq = s.sq ∧
    (actEvents p mask s).1.hc = s.hc ∧ (actEvents p mask s).1.jn = s.jn ∧
    (actEvents p mask s).1.li = s.li ∧ (actEvents p mask s).1.sp = s.sp ∧
    (actEvents p mask s).1.pi.outQueue = s.pi.outQueue ∧
    (actEvents p mask s).1.pi.driveSlot = s.pi.driveSlot ∧
    (actEvents p mask s).1.pi.headSlot = s.pi.headSlot ∧ (actEvents p mask s).1.pi.linkDue = s.pi.linkDue ∧
    (actEvents p mask s).1.pi.receivers = s.pi.receivers ∧
    (actEvents p mask s).1.pi.sendStart = s.pi.sendStart := by
  simp [actEvents]

@[simp] theorem actRestart_frame (p : Port) (a : Byte) (s : State) :
    SameBase (actRestart p a s).1 s ∧ (actRestart p a s).1.now = s.now ∧
    (actRestart p a s).1.hc.linkHalt = s.hc.linkHalt ∧ OnlyRecords (actRestart p a s).1 s ∧
    OnlyLatches (actRestart p a s).1 s ∧ (actRestart p a s).1.li = s.li ∧ (actRestart p a s).1.sp = s.sp := by
  unfold actRestart
  try dsimp only
  (repeat' split) <;> simp

/-! ### Events of the part -/

@[simp] theorem State.expireSilence_frame (s : State) :
    SameBase (s.expireSilence) s ∧ (s.expireSilence).wt = s.wt ∧ (s.expireSilence).ca = s.ca ∧
    (s.expireSilence).fs = s.fs ∧ (s.expireSilence).ld = s.ld ∧ (s.expireSilence).sq = s.sq ∧
    (s.expireSilence).hc = s.hc ∧ OnlyRecords (s.expireSilence) s ∧ OnlyLatches (s.expireSilence) s ∧
    (s.expireSilence).li = s.li ∧ (s.expireSilence).sp = s.sp := by
  unfold State.expireSilence
  try dsimp only
  (repeat' split) <;> simp

@[simp] theorem State.takeGate_frame (s : State) :
    SameBase (s.takeGate) s ∧ (s.takeGate).wt = s.wt ∧ (s.takeGate).ca = s.ca ∧ (s.takeGate).fs = s.fs ∧
    OnlyDwell (s.takeGate) s ∧ (s.takeGate).hc.linkHalt = s.hc.linkHalt ∧ OnlyRecords (s.takeGate) s ∧
    OnlyLatches (s.takeGate) s ∧ (s.takeGate).li = s.li ∧ (s.takeGate).sp = s.sp := by simp [State.takeGate]

@[simp] theorem State.tickClock_frame (s : State) :
    SameBase (s.tickClock) s ∧ (s.tickClock).wt = s.wt ∧ (s.tickClock).ca = s.ca ∧
    (s.tickClock).fs = s.fs ∧ (s.tickClock).ld = s.ld ∧ (s.tickClock).sq = s.sq ∧ (s.tickClock).hc = s.hc ∧
    (s.tickClock).jn = s.jn ∧ (s.tickClock).pi = s.pi ∧ (s.tickClock).li = s.li ∧ (s.tickClock).sp = s.sp := by simp [State.tickClock]

@[simp] theorem State.timeOutClaim_frame (p : Port) (s : State) :
    SameBase (s.timeOutClaim p) s ∧ (s.timeOutClaim p).cu = s.cu ∧ (s.timeOutClaim p).wt = s.wt ∧
    (s.timeOutClaim p).fs = s.fs ∧ (s.timeOutClaim p).ld = s.ld ∧ (s.timeOutClaim p).sq = s.sq ∧
    (s.timeOutClaim p).hc = s.hc ∧ (s.timeOutClaim p).jn = s.jn ∧ OnlyLatches (s.timeOutClaim p) s ∧
    (s.timeOutClaim p).li = s.li ∧ (s.timeOutClaim p).sp = s.sp := by
  unfold State.timeOutClaim
  try dsimp only
  (repeat' split) <;> simp

@[simp] theorem State.acceptSag_frame (s : State) :
    SameBase (s.acceptSag) s ∧ (s.acceptSag).now = s.now ∧ (s.acceptSag).cu = s.cu ∧
    (s.acceptSag).wt = s.wt ∧ OnlyRing (s.acceptSag) s ∧ (s.acceptSag).sq = s.sq ∧
    (s.acceptSag).hc = s.hc ∧ OnlyRecords (s.acceptSag) s ∧ OnlyLatches (s.acceptSag) s ∧
    (s.acceptSag).li = s.li ∧ (s.acceptSag).sp = s.sp := by
  unfold State.acceptSag
  try dsimp only
  (repeat' split) <;> simp

@[simp] theorem State.acceptSagEnd_frame (s : State) :
    SameBase (s.acceptSagEnd) s ∧ (s.acceptSagEnd).now = s.now ∧ (s.acceptSagEnd).cu = s.cu ∧
    (s.acceptSagEnd).wt = s.wt ∧ (s.acceptSagEnd).fs = s.fs ∧ (s.acceptSagEnd).ld = s.ld ∧
    (s.acceptSagEnd).sq = s.sq ∧ (s.acceptSagEnd).hc = s.hc ∧ OnlyRecords (s.acceptSagEnd) s ∧
    OnlyLatches (s.acceptSagEnd) s ∧ (s.acceptSagEnd).li = s.li ∧ (s.acceptSagEnd).sp = s.sp := by
  unfold State.acceptSagEnd
  try dsimp only
  (repeat' split) <;> simp

@[simp] theorem State.expireSettle_frame (s : State) :
    SameBase (s.expireSettle) s ∧ (s.expireSettle).cu = s.cu ∧ (s.expireSettle).wt = s.wt ∧
    (s.expireSettle).ca = s.ca ∧ (s.expireSettle).fs = s.fs ∧ OnlyDwell (s.expireSettle) s ∧
    (s.expireSettle).hc.linkHalt = s.hc.linkHalt ∧ OnlyRecords (s.expireSettle) s ∧
    OnlyLatches (s.expireSettle) s ∧ (s.expireSettle).li = s.li ∧ (s.expireSettle).sp = s.sp := by
  unfold State.expireSettle
  try dsimp only
  (repeat' split) <;> simp

@[simp] theorem State.expireHalt_frame (s : State) :
    SameBase (s.expireHalt) s ∧ (s.expireHalt).cu = s.cu ∧ (s.expireHalt).wt = s.wt ∧
    (s.expireHalt).ca = s.ca ∧ (s.expireHalt).fs = s.fs ∧ OnlyDwell (s.expireHalt) s ∧
    (s.expireHalt).hc.linkHalt = s.hc.linkHalt ∧ OnlyRecords (s.expireHalt) s ∧
    OnlyLatches (s.expireHalt) s ∧ (s.expireHalt).li = s.li ∧ (s.expireHalt).sp = s.sp := by
  unfold State.expireHalt
  try dsimp only
  (repeat' split) <;> simp

@[simp] theorem State.endPwmPeriod_frame (s : State) :
    SameBase (s.endPwmPeriod) s ∧ (s.endPwmPeriod).cu = s.cu ∧ (s.endPwmPeriod).wt = s.wt ∧
    (s.endPwmPeriod).ca = s.ca ∧ (s.endPwmPeriod).fs = s.fs ∧ (s.endPwmPeriod).sq = s.sq ∧
    (s.endPwmPeriod).hc = s.hc ∧ (s.endPwmPeriod).jn = s.jn ∧ (s.endPwmPeriod).pi = s.pi ∧
    (s.endPwmPeriod).li = s.li ∧ (s.endPwmPeriod).sp = s.sp := by
  unfold State.endPwmPeriod
  try dsimp only
  (repeat' split) <;> simp

@[simp] theorem State.endPwmOn_frame (c : Fin 4) (s : State) :
    SameBase (s.endPwmOn c) s ∧ (s.endPwmOn c).cu = s.cu ∧ (s.endPwmOn c).wt = s.wt ∧
    (s.endPwmOn c).ca = s.ca ∧ (s.endPwmOn c).fs = s.fs ∧ (s.endPwmOn c).sq = s.sq ∧
    (s.endPwmOn c).hc = s.hc ∧ (s.endPwmOn c).jn = s.jn ∧ (s.endPwmOn c).pi = s.pi ∧
    (s.endPwmOn c).li = s.li ∧ (s.endPwmOn c).sp = s.sp := by
  unfold State.endPwmOn
  try dsimp only
  (repeat' split) <;> simp

@[simp] theorem State.beginDwell_frame (s : State) :
    SameBase (s.beginDwell) s ∧ (s.beginDwell).cu = s.cu ∧ (s.beginDwell).wt = s.wt ∧
    (s.beginDwell).ca = s.ca ∧ (s.beginDwell).fs = s.fs ∧ OnlyDwell (s.beginDwell) s ∧
    (s.beginDwell).sq = s.sq ∧ (s.beginDwell).hc = s.hc ∧ (s.beginDwell).jn = s.jn ∧
    (s.beginDwell).pi = s.pi ∧ (s.beginDwell).li = s.li ∧ (s.beginDwell).sp = s.sp := by
  unfold State.beginDwell
  try dsimp only
  (repeat' split) <;> simp

@[simp] theorem State.expireAttribute_frame (which : Posted) (s : State) :
    SameBase (s.expireAttribute which) s ∧ (s.expireAttribute which).cu = s.cu ∧
    (s.expireAttribute which).wt = s.wt ∧ (s.expireAttribute which).ca = s.ca ∧
    (s.expireAttribute which).ld = s.ld ∧ (s.expireAttribute which).sq = s.sq ∧
    (s.expireAttribute which).hc = s.hc ∧ (s.expireAttribute which).jn = s.jn ∧
    (s.expireAttribute which).pi = s.pi ∧ (s.expireAttribute which).li = s.li ∧
    (s.expireAttribute which).sp = s.sp := by
  unfold State.expireAttribute
  try dsimp only
  (repeat' split) <;> simp

@[simp] theorem State.takeStrobe_frame (s : State) :
    SameBase (s.takeStrobe) s ∧ (s.takeStrobe).cu = s.cu ∧ (s.takeStrobe).wt = s.wt ∧
    (s.takeStrobe).ca = s.ca ∧ OnlyRing (s.takeStrobe) s ∧ (s.takeStrobe).sq = s.sq ∧
    (s.takeStrobe).hc = s.hc ∧ (s.takeStrobe).jn = s.jn ∧ (s.takeStrobe).pi = s.pi ∧
    (s.takeStrobe).li = s.li ∧ (s.takeStrobe).sp = s.sp := by
  unfold State.takeStrobe
  try dsimp only
  (repeat' split) <;> simp

@[simp] theorem State.takeExposure_frame (s : State) :
    SameBase (s.takeExposure) s ∧ (s.takeExposure).cu = s.cu ∧ (s.takeExposure).wt = s.wt ∧
    (s.takeExposure).ca = s.ca ∧ OnlyRing (s.takeExposure) s ∧ (s.takeExposure).ld = s.ld ∧
    (s.takeExposure).sq = s.sq ∧ (s.takeExposure).hc = s.hc ∧ (s.takeExposure).jn = s.jn ∧
    (s.takeExposure).pi = s.pi ∧ (s.takeExposure).li = s.li ∧ (s.takeExposure).sp = s.sp := by
  unfold State.takeExposure
  try dsimp only
  (repeat' split) <;> simp

@[simp] theorem State.takeMidpoint_frame (s : State) :
    SameBase (s.takeMidpoint) s ∧ (s.takeMidpoint).cu = s.cu ∧ (s.takeMidpoint).wt = s.wt ∧
    (s.takeMidpoint).ca = s.ca ∧ OnlyRing (s.takeMidpoint) s ∧ (s.takeMidpoint).ld = s.ld ∧
    (s.takeMidpoint).sq = s.sq ∧ (s.takeMidpoint).hc = s.hc ∧ (s.takeMidpoint).jn = s.jn ∧
    (s.takeMidpoint).pi = s.pi ∧ (s.takeMidpoint).li = s.li ∧ (s.takeMidpoint).sp = s.sp := by
  unfold State.takeMidpoint
  try dsimp only
  (repeat' split) <;> simp

@[simp] theorem State.takeExposureEnd_frame (s : State) :
    SameBase (s.takeExposureEnd) s ∧ (s.takeExposureEnd).cu = s.cu ∧ (s.takeExposureEnd).wt = s.wt ∧
    (s.takeExposureEnd).ca = s.ca ∧ OnlyRing (s.takeExposureEnd) s ∧ (s.takeExposureEnd).sq = s.sq ∧
    (s.takeExposureEnd).hc.linkHalt = s.hc.linkHalt ∧ OnlyRecords (s.takeExposureEnd) s ∧
    OnlyLatches (s.takeExposureEnd) s ∧ (s.takeExposureEnd).li = s.li := by
  unfold State.takeExposureEnd
  try dsimp only
  (repeat' split) <;> simp

@[simp] theorem State.takeLuma_frame (tag : Byte) (luma : Half) (s : State) :
    SameBase (s.takeLuma tag luma) s ∧ (s.takeLuma tag luma).now = s.now ∧
    (s.takeLuma tag luma).cu = s.cu ∧ (s.takeLuma tag luma).wt = s.wt ∧ (s.takeLuma tag luma).ca = s.ca ∧
    OnlyRing (s.takeLuma tag luma) s ∧ (s.takeLuma tag luma).ld = s.ld ∧ (s.takeLuma tag luma).sq = s.sq ∧
    (s.takeLuma tag luma).hc = s.hc ∧ (s.takeLuma tag luma).jn = s.jn ∧ (s.takeLuma tag luma).pi = s.pi ∧
    (s.takeLuma tag luma).li = s.li := by simp [State.takeLuma]

@[simp] theorem State.lowPeriod_frame (s : State) :
    SameBase (s.lowPeriod) s ∧ (s.lowPeriod).now = s.now ∧ (s.lowPeriod).cu = s.cu ∧
    (s.lowPeriod).wt = s.wt ∧ (s.lowPeriod).ca = s.ca ∧ (s.lowPeriod).fs = s.fs ∧ (s.lowPeriod).ld = s.ld ∧
    (s.lowPeriod).sq = s.sq ∧ (s.lowPeriod).hc = s.hc ∧ (s.lowPeriod).jn = s.jn ∧ (s.lowPeriod).pi = s.pi ∧
    (s.lowPeriod).li = s.li := by simp [State.lowPeriod]

@[simp] theorem State.byteGap_frame (s : State) :
    SameBase (s.byteGap) s ∧ (s.byteGap).cu = s.cu ∧ (s.byteGap).wt = s.wt ∧ (s.byteGap).ca = s.ca ∧
    (s.byteGap).fs = s.fs ∧ (s.byteGap).ld = s.ld ∧ (s.byteGap).sq = s.sq ∧ (s.byteGap).hc = s.hc ∧
    (s.byteGap).jn = s.jn ∧ (s.byteGap).li = s.li ∧ (s.byteGap).sp = s.sp := by
  unfold State.byteGap
  try dsimp only
  (repeat' split) <;> simp

@[simp] theorem State.answerSent_frame (s : State) :
    SameBase (s.answerSent) s ∧ (s.answerSent).cu = s.cu ∧ (s.answerSent).wt = s.wt ∧
    (s.answerSent).ca = s.ca ∧ (s.answerSent).fs = s.fs ∧ (s.answerSent).ld = s.ld ∧
    (s.answerSent).sq = s.sq ∧ (s.answerSent).hc = s.hc ∧ (s.answerSent).jn = s.jn ∧
    (s.answerSent).li = s.li ∧ (s.answerSent).sp = s.sp := by
  unfold State.answerSent
  try dsimp only
  (repeat' split) <;> simp

@[simp] theorem State.acceptRequest_frame (b : BusPort) (code : Byte) (args : List Byte) (s : State) :
    SameBase (s.acceptRequest b code args) s ∧ (s.acceptRequest b code args).now = s.now ∧
    (s.acceptRequest b code args).cu = s.cu ∧ (s.acceptRequest b code args).wt = s.wt ∧
    (s.acceptRequest b code args).ca = s.ca ∧ (s.acceptRequest b code args).fs = s.fs ∧
    (s.acceptRequest b code args).ld = s.ld ∧ (s.acceptRequest b code args).sq = s.sq ∧
    (s.acceptRequest b code args).hc = s.hc ∧ (s.acceptRequest b code args).jn = s.jn ∧
    (s.acceptRequest b code args).li = s.li ∧ (s.acceptRequest b code args).sp = s.sp := by
  unfold State.acceptRequest
  try dsimp only
  (repeat' split) <;> simp

@[simp] theorem State.linkExpiry_frame (s : State) :
    SameBase (s.linkExpiry) s ∧ (s.linkExpiry).cu = s.cu ∧ (s.linkExpiry).wt = s.wt ∧
    (s.linkExpiry).ca = s.ca ∧ (s.linkExpiry).fs = s.fs ∧ (s.linkExpiry).ld = s.ld ∧
    (s.linkExpiry).sq = s.sq ∧ (s.linkExpiry).jn = s.jn ∧ (s.linkExpiry).li = s.li ∧
    (s.linkExpiry).sp = s.sp := by
  unfold State.linkExpiry
  try dsimp only
  (repeat' split) <;> simp

end Sys2Proof.Machine
end

