-- ==== Sys2Proof/Laws/Exposure.lean ====
section
/-! SUPPORT. Bounds of the exposure allocation (5.5): the exposure stays within its cap, the delivered
level within the lamp cap, and the lamp commit within the lamp allowance. -/

namespace Sys2Proof.Machine

/-- A quotient rounded up stays within a bound of the exact one. -/
theorem ceilDiv_le {x y n : Nat} (h : x ≤ n * y) : ceilDiv x y ≤ n := by
  unfold ceilDiv
  rcases Nat.eq_zero_or_pos y with rfl | hy
  · simp
  · rw [Nat.div_le_iff_le_mul_add_pred hy]
    have : n * y = y * n := Nat.mul_comm ..
    omega

/-- t is at most t_cap (R91, R92). -/
theorem exposure_le (a : Allocation) : a.exposure ≤ a.exposureCap := by
  unfold Allocation.exposure
  split
  · next h =>
    simp only [Allocation.tooBright, decide_eq_true_eq] at h
    have h20 : tMin ≤ a.exposureCap := by unfold Allocation.exposureCap; exact Nat.le_max_left _ _
    have := Nat.div_lt_of_lt_mul h
    omega
  · exact le_refl _

/-- D is at most D_cap (R91, R92). -/
theorem level_le_cap (a : Allocation) : a.level ≤ a.lampCap := by
  unfold Allocation.level; split <;> exact Nat.min_le_right _ _

/-- The shares with the remainder add up to D (R109). -/
theorem shares_sum (d : Nat) (w : Four Nat) : (sharesOf d w).sum = d := by
  have hpos : 0 < (effectiveWeights w).sum := by
    unfold effectiveWeights; split
    · decide
    · omega
  have hle : ((effectiveWeights w).map fun wc => d * wc / (effectiveWeights w).sum).sum ≤ d := by
    generalize effectiveWeights w = v at *
    have hd : d = d * v.sum / v.sum := (Nat.mul_div_cancel _ hpos).symm
    have h1 : d * v.c0 / v.sum + d * v.c1 / v.sum ≤ _ := Nat.div_add_div_le_add_div
    have h2 : (d * v.c0 + d * v.c1) / v.sum + d * v.c2 / v.sum ≤ _ := Nat.div_add_div_le_add_div
    have h3 : (d * v.c0 + d * v.c1 + d * v.c2) / v.sum + d * v.c3 / v.sum ≤ _ :=
      Nat.div_add_div_le_add_div
    have h4 : d * v.c0 + d * v.c1 + d * v.c2 + d * v.c3 = d * v.sum := by
      simp only [Four.sum]; ring
    rw [h4, ← hd] at h3
    simp only [Four.map]
    show d * v.c0 / v.sum + d * v.c1 / v.sum + d * v.c2 / v.sum + d * v.c3 / v.sum ≤ d
    omega
  unfold sharesOf
  dsimp only
  generalize ((effectiveWeights w).map fun wc => d * wc / (effectiveWeights w).sum) = sh at *
  generalize topChannel _ = top
  have : ∀ i : Fin 4, (sh.set i (sh.get i + (d - sh.sum))).sum = d := by
    intro i
    simp only [Four.sum] at *
    fin_cases i <;> simp [Four.set, Four.get] <;> omega
  exact this top

/-- The clamp only lowers the sum (R110). -/
theorem distribute_sum_le (d : Nat) (w : Four Nat) (m : Nat) : (distribute d w m).sum ≤ d := by
  conv_rhs => rw [← shares_sum d w]
  unfold distribute
  simp only [Four.sum, Four.map]
  omega

/-- The delivered D is at most D_cap (R93). -/
theorem delivered_le (a : Allocation) : a.delivered ≤ a.lampCap := by
  unfold Allocation.delivered Allocation.levels
  split
  · simp [Four.sum, Four.all]
  · exact (distribute_sum_le _ _ _).trans (level_le_cap a)

/-- The lamp commit never exceeds the lamp allowance (R95, R65). -/
theorem lampCommit_le (a : Allocation) : a.lampCommit ≤ a.allowance := by
  unfold Allocation.lampCommit
  have hd := delivered_le a
  split
  · next hm =>
    apply ceilDiv_le
    have hcap : a.lampCap ≤ a.allowance * a.cfg.framePeriod / (a.exposureCap + strobeLead) := by
      unfold Allocation.lampCap
      simp only [hm]
      split <;> omega
    calc a.delivered * (a.exposure + strobeLead)
        ≤ (a.allowance * a.cfg.framePeriod / (a.exposureCap + strobeLead)) * (a.exposureCap + strobeLead) :=
          Nat.mul_le_mul (hd.trans hcap) (by have := exposure_le a; omega)
      _ ≤ _ := Nat.div_mul_le_self _ _
  · next hm =>
    refine hd.trans ?_
    unfold Allocation.lampCap
    simp only [hm]
    split <;> omega
  · exact Nat.zero_le _

end Sys2Proof.Machine
end

