-- ==== Sys2Proof/Laws/Arbiter.lean ====
section
/-! SUPPORT. What the operations of the current arbiter do to the budget of R59: each keeps it. -/

namespace Sys2Proof.Machine

/-- A record replaced changes Σgranted by the difference of the grants. -/
theorem Arbiter.granted_set (a : Arbiter) (p : Port) (c : Claim) :
    ({ a with claims := a.claims.set p c } : Arbiter).granted + (a.claims.get p).granted =
      a.granted + c.granted := by
  cases p <;> simp [Arbiter.granted, PerPort.set, PerPort.get] <;> omega

/-- The budget reads four fields. -/
theorem State.budgetHolds_of {s t : State} (h : s.budgetHolds) (hc : t.cfg = s.cfg)
    (hk : t.ca.claims = s.ca.claims) (hl : t.ca.commit = s.ca.commit) : t.budgetHolds := by
  unfold State.budgetHolds Arbiter.granted at *
  rw [hc, hk, hl]
  exact h

theorem State.serveQueue_budget (queue : List Port) (s : State) (h : s.budgetHolds) :
    (State.serveQueue queue s).budgetHolds := by
  induction queue generalizing s with
  | nil => exact h
  | cons p rest ih =>
    unfold State.serveQueue
    split
    · next hn =>
      apply ih
      have := s.ca.granted_set p ⟨(s.ca.claims.get p).requested, (s.ca.claims.get p).requested, .settled⟩
      unfold State.budgetHolds State.freeCurrent Claim.need at *
      simp [State.grantClaim, State.setClaim] at *
      omega
    · exact h

/-- Serving never grants past A (R59, R67). -/
theorem State.serve_budget (s : State) (h : s.budgetHolds) : s.serve.budgetHolds := by
  unfold State.serve
  split
  · exact h
  · exact State.serveQueue_budget _ _ h

/-- A claim, in every case of the table of 4.3, keeps the budget (R62 to R64). -/
theorem State.takeClaim_budget (p : Port) (x : Nat) (s : State) (h : s.budgetHolds) :
    (s.takeClaim p x).1.budgetHolds := by
  have hset := fun g r st => s.ca.granted_set p ⟨g, r, st⟩
  unfold State.takeClaim
  dsimp only
  split
  · exact h
  · split
    · next hx =>
      refine State.serve_budget _ (State.budgetHolds_of (s := s.setClaim p ⟨x, x, .settled⟩) ?_ rfl rfl rfl)
      have := hset x x .settled
      unfold State.budgetHolds at *
      simp [State.setClaim] at *
      omega
    · split
      · next hfit =>
        have := hset x x .settled
        have hf := hfit.2.2
        unfold State.budgetHolds State.freeCurrent at *
        simp [State.setClaim] at *
        omega
      · have hd : (s.setClaim p ⟨(s.ca.claims.get p).granted, x,
            .pending (s.now + ticksOfMs s.cfg.claimTimeout)⟩).budgetHolds := by
          have := hset (s.ca.claims.get p).granted x (.pending (s.now + ticksOfMs s.cfg.claimTimeout))
          unfold State.budgetHolds at *
          simp [State.setClaim] at *
          omega
        split
        · exact hd
        · exact State.budgetHolds_of hd rfl rfl rfl

/-- An expiry leaves the grant as it was (R68). -/
theorem State.expireClaim_budget (p : Port) (s : State) (h : s.budgetHolds) :
    (s.expireClaim p).budgetHolds := by
  have := s.ca.granted_set p ⟨(s.ca.claims.get p).granted, (s.ca.claims.get p).granted, .settled⟩
  refine State.budgetHolds_of (s := s.setClaim p ⟨(s.ca.claims.get p).granted,
    (s.ca.claims.get p).granted, .settled⟩) ?_ (by simp [State.expireClaim])
    (by simp [State.expireClaim, State.leaveQueue, State.setEvent])
    (by simp [State.expireClaim, State.leaveQueue, State.setClaim, State.setEvent])
  unfold State.budgetHolds at *
  simp [State.setClaim] at *
  omega

/-- The hand-in of a commit within the lamp allowance keeps the budget (R65, R66). -/
theorem State.handInCommit_budget (commit : Nat) (s : State) (h : s.budgetHolds)
    (hc : commit ≤ s.lampAllowance) : (s.handInCommit commit).budgetHolds := by
  unfold State.handInCommit
  split
  · unfold State.budgetHolds Arbiter.granted at *
    dsimp only at *
    omega
  · apply State.serve_budget
    unfold State.budgetHolds State.lampAllowance Arbiter.granted at *
    dsimp only at *
    omega

end Sys2Proof.Machine
end

