-- ==== Sys2Proof/Laws/PerInstr.lean ====
section
/-! SUPPORT. What is said of every command as a term: whether its code is one of 12.1, and that the
request it stands for carries its own argument bytes. One lemma for each constructor of Instr. -/

open Sys2Proof Sys2Proof.Machine

/-- A command that is a request carries its arguments and a code of 12.1; the unknown request's code is
the only one that the table of 12.1 may lack, and well-formedness asks that it does. -/
def Sys2Proof.Laws.Commands.Statement (i : Sys2Proof.Instr) : Prop :=
  ((∀ p code args, i ≠ .unknownRequest p code args) → i.codeUnknown = true) ∧
  ∀ p code args, Sys2Proof.Machine.asRequest i = some (p, code, args) →
    args = i.args ∧ (i = .unknownRequest p code args ∨ Sys2Proof.requestCodes.contains code = true)

theorem Sys2Proof.Laws.Commands.status (port : Port) (args : List Byte) : Sys2Proof.Laws.Commands.Statement (.status port args) :=
  ⟨fun _ => rfl, fun _ _ _ h => by cases h; exact ⟨rfl, Or.inr rfl⟩⟩

theorem Sys2Proof.Laws.Commands.events (port : Port) (args : List Byte) : Sys2Proof.Laws.Commands.Statement (.events port args) :=
  ⟨fun _ => rfl, fun _ _ _ h => by cases h; exact ⟨rfl, Or.inr rfl⟩⟩

theorem Sys2Proof.Laws.Commands.configGet (port : Port) (args : List Byte) : Sys2Proof.Laws.Commands.Statement (.configGet port args) :=
  ⟨fun _ => rfl, fun _ _ _ h => by cases h; exact ⟨rfl, Or.inr rfl⟩⟩

theorem Sys2Proof.Laws.Commands.configSet (port : Port) (args : List Byte) : Sys2Proof.Laws.Commands.Statement (.configSet port args) :=
  ⟨fun _ => rfl, fun _ _ _ h => by cases h; exact ⟨rfl, Or.inr rfl⟩⟩

theorem Sys2Proof.Laws.Commands.restart (port : Port) (args : List Byte) : Sys2Proof.Laws.Commands.Statement (.restart port args) :=
  ⟨fun _ => rfl, fun _ _ _ h => by cases h; exact ⟨rfl, Or.inr rfl⟩⟩

theorem Sys2Proof.Laws.Commands.runStart (port : Port) (args : List Byte) : Sys2Proof.Laws.Commands.Statement (.runStart port args) :=
  ⟨fun _ => rfl, fun _ _ _ h => by cases h; exact ⟨rfl, Or.inr rfl⟩⟩

theorem Sys2Proof.Laws.Commands.runEnd (port : Port) (args : List Byte) : Sys2Proof.Laws.Commands.Statement (.runEnd port args) :=
  ⟨fun _ => rfl, fun _ _ _ h => by cases h; exact ⟨rfl, Or.inr rfl⟩⟩

theorem Sys2Proof.Laws.Commands.zero (port : Port) (args : List Byte) : Sys2Proof.Laws.Commands.Statement (.zero port args) :=
  ⟨fun _ => rfl, fun _ _ _ h => by cases h; exact ⟨rfl, Or.inr rfl⟩⟩

theorem Sys2Proof.Laws.Commands.setChainage (port : Port) (args : List Byte) : Sys2Proof.Laws.Commands.Statement (.setChainage port args) :=
  ⟨fun _ => rfl, fun _ _ _ h => by cases h; exact ⟨rfl, Or.inr rfl⟩⟩

theorem Sys2Proof.Laws.Commands.reelReport (port : Port) (args : List Byte) : Sys2Proof.Laws.Commands.Statement (.reelReport port args) :=
  ⟨fun _ => rfl, fun _ _ _ h => by cases h; exact ⟨rfl, Or.inr rfl⟩⟩

theorem Sys2Proof.Laws.Commands.waypointPlace (port : Port) (args : List Byte) : Sys2Proof.Laws.Commands.Statement (.waypointPlace port args) :=
  ⟨fun _ => rfl, fun _ _ _ h => by cases h; exact ⟨rfl, Or.inr rfl⟩⟩

theorem Sys2Proof.Laws.Commands.waypointClear (port : Port) (args : List Byte) : Sys2Proof.Laws.Commands.Statement (.waypointClear port args) :=
  ⟨fun _ => rfl, fun _ _ _ h => by cases h; exact ⟨rfl, Or.inr rfl⟩⟩

theorem Sys2Proof.Laws.Commands.waypointRead (port : Port) (args : List Byte) : Sys2Proof.Laws.Commands.Statement (.waypointRead port args) :=
  ⟨fun _ => rfl, fun _ _ _ h => by cases h; exact ⟨rfl, Or.inr rfl⟩⟩

theorem Sys2Proof.Laws.Commands.claim (port : Port) (args : List Byte) : Sys2Proof.Laws.Commands.Statement (.claim port args) :=
  ⟨fun _ => rfl, fun _ _ _ h => by cases h; exact ⟨rfl, Or.inr rfl⟩⟩

theorem Sys2Proof.Laws.Commands.still (port : Port) (args : List Byte) : Sys2Proof.Laws.Commands.Statement (.still port args) :=
  ⟨fun _ => rfl, fun _ _ _ h => by cases h; exact ⟨rfl, Or.inr rfl⟩⟩

theorem Sys2Proof.Laws.Commands.halt (port : Port) (args : List Byte) : Sys2Proof.Laws.Commands.Statement (.halt port args) :=
  ⟨fun _ => rfl, fun _ _ _ h => by cases h; exact ⟨rfl, Or.inr rfl⟩⟩

theorem Sys2Proof.Laws.Commands.haltAck (port : Port) (args : List Byte) : Sys2Proof.Laws.Commands.Statement (.haltAck port args) :=
  ⟨fun _ => rfl, fun _ _ _ h => by cases h; exact ⟨rfl, Or.inr rfl⟩⟩

theorem Sys2Proof.Laws.Commands.resume (port : Port) (args : List Byte) : Sys2Proof.Laws.Commands.Statement (.resume port args) :=
  ⟨fun _ => rfl, fun _ _ _ h => by cases h; exact ⟨rfl, Or.inr rfl⟩⟩

theorem Sys2Proof.Laws.Commands.lampMode (port : Port) (args : List Byte) : Sys2Proof.Laws.Commands.Statement (.lampMode port args) :=
  ⟨fun _ => rfl, fun _ _ _ h => by cases h; exact ⟨rfl, Or.inr rfl⟩⟩

theorem Sys2Proof.Laws.Commands.lampWeights (port : Port) (args : List Byte) : Sys2Proof.Laws.Commands.Statement (.lampWeights port args) :=
  ⟨fun _ => rfl, fun _ _ _ h => by cases h; exact ⟨rfl, Or.inr rfl⟩⟩

theorem Sys2Proof.Laws.Commands.presetWrite (port : Port) (args : List Byte) : Sys2Proof.Laws.Commands.Statement (.presetWrite port args) :=
  ⟨fun _ => rfl, fun _ _ _ h => by cases h; exact ⟨rfl, Or.inr rfl⟩⟩

theorem Sys2Proof.Laws.Commands.presetSelect (port : Port) (args : List Byte) : Sys2Proof.Laws.Commands.Statement (.presetSelect port args) :=
  ⟨fun _ => rfl, fun _ _ _ h => by cases h; exact ⟨rfl, Or.inr rfl⟩⟩

theorem Sys2Proof.Laws.Commands.attitude (port : Port) (args : List Byte) : Sys2Proof.Laws.Commands.Statement (.attitude port args) :=
  ⟨fun _ => rfl, fun _ _ _ h => by cases h; exact ⟨rfl, Or.inr rfl⟩⟩

theorem Sys2Proof.Laws.Commands.pose (port : Port) (args : List Byte) : Sys2Proof.Laws.Commands.Statement (.pose port args) :=
  ⟨fun _ => rfl, fun _ _ _ h => by cases h; exact ⟨rfl, Or.inr rfl⟩⟩

theorem Sys2Proof.Laws.Commands.journalNext (port : Port) (args : List Byte) : Sys2Proof.Laws.Commands.Statement (.journalNext port args) :=
  ⟨fun _ => rfl, fun _ _ _ h => by cases h; exact ⟨rfl, Or.inr rfl⟩⟩

theorem Sys2Proof.Laws.Commands.journalBulk (port : Port) (args : List Byte) : Sys2Proof.Laws.Commands.Statement (.journalBulk port args) :=
  ⟨fun _ => rfl, fun _ _ _ h => by cases h; exact ⟨rfl, Or.inr rfl⟩⟩

theorem Sys2Proof.Laws.Commands.journalSeek (port : Port) (args : List Byte) : Sys2Proof.Laws.Commands.Statement (.journalSeek port args) :=
  ⟨fun _ => rfl, fun _ _ _ h => by cases h; exact ⟨rfl, Or.inr rfl⟩⟩

theorem Sys2Proof.Laws.Commands.journalRewind (port : Port) (args : List Byte) : Sys2Proof.Laws.Commands.Statement (.journalRewind port args) :=
  ⟨fun _ => rfl, fun _ _ _ h => by cases h; exact ⟨rfl, Or.inr rfl⟩⟩

theorem Sys2Proof.Laws.Commands.journalBind (port : Port) (args : List Byte) : Sys2Proof.Laws.Commands.Statement (.journalBind port args) :=
  ⟨fun _ => rfl, fun _ _ _ h => by cases h; exact ⟨rfl, Or.inr rfl⟩⟩

theorem Sys2Proof.Laws.Commands.journalUnbind (port : Port) (args : List Byte) : Sys2Proof.Laws.Commands.Statement (.journalUnbind port args) :=
  ⟨fun _ => rfl, fun _ _ _ h => by cases h; exact ⟨rfl, Or.inr rfl⟩⟩

theorem Sys2Proof.Laws.Commands.journalClear (port : Port) (args : List Byte) : Sys2Proof.Laws.Commands.Statement (.journalClear port args) :=
  ⟨fun _ => rfl, fun _ _ _ h => by cases h; exact ⟨rfl, Or.inr rfl⟩⟩

theorem Sys2Proof.Laws.Commands.journalMode (port : Port) (args : List Byte) : Sys2Proof.Laws.Commands.Statement (.journalMode port args) :=
  ⟨fun _ => rfl, fun _ _ _ h => by cases h; exact ⟨rfl, Or.inr rfl⟩⟩

theorem Sys2Proof.Laws.Commands.mark (port : Port) (args : List Byte) : Sys2Proof.Laws.Commands.Statement (.mark port args) :=
  ⟨fun _ => rfl, fun _ _ _ h => by cases h; exact ⟨rfl, Or.inr rfl⟩⟩

theorem Sys2Proof.Laws.Commands.note (port : Port) (args : List Byte) : Sys2Proof.Laws.Commands.Statement (.note port args) :=
  ⟨fun _ => rfl, fun _ _ _ h => by cases h; exact ⟨rfl, Or.inr rfl⟩⟩

theorem Sys2Proof.Laws.Commands.unknownRequest (port : Port) (code : Byte) (args : List Byte) : Sys2Proof.Laws.Commands.Statement (.unknownRequest port code args) :=
  ⟨fun h => absurd rfl (h _ _ _), fun _ _ _ h => by cases h; exact ⟨rfl, Or.inl rfl⟩⟩

theorem Sys2Proof.Laws.Commands.invalidFrame (port : Port) : Sys2Proof.Laws.Commands.Statement (.invalidFrame port) :=
  ⟨fun _ => rfl, fun _ _ _ h => nomatch h⟩

theorem Sys2Proof.Laws.Commands.surfaceByteGapTimeout : Sys2Proof.Laws.Commands.Statement (.surfaceByteGapTimeout) :=
  ⟨fun _ => rfl, fun _ _ _ h => nomatch h⟩

theorem Sys2Proof.Laws.Commands.surfaceAnswerSent : Sys2Proof.Laws.Commands.Statement (.surfaceAnswerSent) :=
  ⟨fun _ => rfl, fun _ _ _ h => nomatch h⟩

theorem Sys2Proof.Laws.Commands.answerSlotAccept (port : BusPort) (code : Byte) (args : List Byte) : Sys2Proof.Laws.Commands.Statement (.answerSlotAccept port code args) :=
  ⟨fun _ => rfl, fun _ _ _ h => nomatch h⟩

theorem Sys2Proof.Laws.Commands.linkTimeout : Sys2Proof.Laws.Commands.Statement (.linkTimeout) :=
  ⟨fun _ => rfl, fun _ _ _ h => nomatch h⟩

theorem Sys2Proof.Laws.Commands.wheelFilterAccept (wa wb : Bool) : Sys2Proof.Laws.Commands.Statement (.wheelFilterAccept wa wb) :=
  ⟨fun _ => rfl, fun _ _ _ h => nomatch h⟩

theorem Sys2Proof.Laws.Commands.reelSilenceExpiry : Sys2Proof.Laws.Commands.Statement (.reelSilenceExpiry) :=
  ⟨fun _ => rfl, fun _ _ _ h => nomatch h⟩

theorem Sys2Proof.Laws.Commands.velocityGate : Sys2Proof.Laws.Commands.Statement (.velocityGate) :=
  ⟨fun _ => rfl, fun _ _ _ h => nomatch h⟩

theorem Sys2Proof.Laws.Commands.runClockTick : Sys2Proof.Laws.Commands.Statement (.runClockTick) :=
  ⟨fun _ => rfl, fun _ _ _ h => nomatch h⟩

theorem Sys2Proof.Laws.Commands.claimTimeout (port : Port) : Sys2Proof.Laws.Commands.Statement (.claimTimeout port) :=
  ⟨fun _ => rfl, fun _ _ _ h => nomatch h⟩

theorem Sys2Proof.Laws.Commands.sagAssert : Sys2Proof.Laws.Commands.Statement (.sagAssert) :=
  ⟨fun _ => rfl, fun _ _ _ h => nomatch h⟩

theorem Sys2Proof.Laws.Commands.sagRelease : Sys2Proof.Laws.Commands.Statement (.sagRelease) :=
  ⟨fun _ => rfl, fun _ _ _ h => nomatch h⟩

theorem Sys2Proof.Laws.Commands.frameBoundary : Sys2Proof.Laws.Commands.Statement (.frameBoundary) :=
  ⟨fun _ => rfl, fun _ _ _ h => nomatch h⟩

theorem Sys2Proof.Laws.Commands.strobeOn : Sys2Proof.Laws.Commands.Statement (.strobeOn) :=
  ⟨fun _ => rfl, fun _ _ _ h => nomatch h⟩

theorem Sys2Proof.Laws.Commands.exposureStart : Sys2Proof.Laws.Commands.Statement (.exposureStart) :=
  ⟨fun _ => rfl, fun _ _ _ h => nomatch h⟩

theorem Sys2Proof.Laws.Commands.midpointCapture : Sys2Proof.Laws.Commands.Statement (.midpointCapture) :=
  ⟨fun _ => rfl, fun _ _ _ h => nomatch h⟩

theorem Sys2Proof.Laws.Commands.exposureEnd : Sys2Proof.Laws.Commands.Statement (.exposureEnd) :=
  ⟨fun _ => rfl, fun _ _ _ h => nomatch h⟩

theorem Sys2Proof.Laws.Commands.lumaReport (tag : Byte) (luma : Half) : Sys2Proof.Laws.Commands.Statement (.lumaReport tag luma) :=
  ⟨fun _ => rfl, fun _ _ _ h => nomatch h⟩

theorem Sys2Proof.Laws.Commands.pwmPeriodEnd : Sys2Proof.Laws.Commands.Statement (.pwmPeriodEnd) :=
  ⟨fun _ => rfl, fun _ _ _ h => nomatch h⟩

theorem Sys2Proof.Laws.Commands.pwmOnEnd (channel : Fin 4) : Sys2Proof.Laws.Commands.Statement (.pwmOnEnd channel) :=
  ⟨fun _ => rfl, fun _ _ _ h => nomatch h⟩

theorem Sys2Proof.Laws.Commands.dwellStart : Sys2Proof.Laws.Commands.Statement (.dwellStart) :=
  ⟨fun _ => rfl, fun _ _ _ h => nomatch h⟩

theorem Sys2Proof.Laws.Commands.settleExpiry : Sys2Proof.Laws.Commands.Statement (.settleExpiry) :=
  ⟨fun _ => rfl, fun _ _ _ h => nomatch h⟩

theorem Sys2Proof.Laws.Commands.haltTimeout : Sys2Proof.Laws.Commands.Statement (.haltTimeout) :=
  ⟨fun _ => rfl, fun _ _ _ h => nomatch h⟩

theorem Sys2Proof.Laws.Commands.attributeExpiry (which : Posted) : Sys2Proof.Laws.Commands.Statement (.attributeExpiry which) :=
  ⟨fun _ => rfl, fun _ _ _ h => nomatch h⟩

theorem Sys2Proof.Laws.Commands.lineEdge (line : Fin 4) : Sys2Proof.Laws.Commands.Statement (.lineEdge line) :=
  ⟨fun _ => rfl, fun _ _ _ h => nomatch h⟩

theorem Sys2Proof.Laws.Commands.resetAssert : Sys2Proof.Laws.Commands.Statement (.resetAssert) :=
  ⟨fun _ => rfl, fun _ _ _ h => nomatch h⟩

theorem Sys2Proof.Laws.Commands.resetRelease : Sys2Proof.Laws.Commands.Statement (.resetRelease) :=
  ⟨fun _ => rfl, fun _ _ _ h => nomatch h⟩

theorem Sys2Proof.Laws.Commands.lineInactiveChange (line : Fin 4) : Sys2Proof.Laws.Commands.Statement (.lineInactiveChange line) :=
  ⟨fun _ => rfl, fun _ _ _ h => nomatch h⟩

theorem Sys2Proof.Laws.Commands.lrckLowPeriod : Sys2Proof.Laws.Commands.Statement (.lrckLowPeriod) :=
  ⟨fun _ => rfl, fun _ _ _ h => nomatch h⟩
end

