-- ==== Sys2Proof/Laws/Requests.lean ====
section
/-! SUPPORT. What hearing a frame and answering a request do, and the one form in which every request is
taken: its act on the heard state, then its answer. -/

namespace Sys2Proof.Machine

/-! ### Hearing (R165) -/

@[simp] theorem State.hearSurface_hc (s : State) :
    s.hearSurface.hc = { s.hc with linkHalt := false } := by
  unfold State.hearSurface
  dsimp only
  split
  · simp
  · next h => simp at h; simp [← h]

@[simp] theorem State.hearSurface_pi (s : State) :
    s.hearSurface.pi.receivers = s.pi.receivers ∧ s.hearSurface.pi.lastByte = s.pi.lastByte ∧
    s.hearSurface.pi.outQueue = s.pi.outQueue ∧ s.hearSurface.pi.sendStart = s.pi.sendStart ∧
    s.hearSurface.pi.driveSlot = s.pi.driveSlot ∧ s.hearSurface.pi.headSlot = s.pi.headSlot ∧
    s.hearSurface.pi.masks = s.pi.masks ∧ s.hearSurface.pi.fastBaud = s.pi.fastBaud ∧
    s.hearSurface.pi.headAddress = s.pi.headAddress ∧ s.hearSurface.pi.spi = s.pi.spi ∧
    s.hearSurface.pi.i2c = s.pi.i2c ∧ s.hearSurface.pi.linkDue = some (s.now + 4000000) := by
  unfold State.hearSurface
  dsimp only
  split <;> simp [ticksOfMs]

@[simp] theorem State.heard_frame (p : Port) (s : State) :
    SameBase (s.heard p) s ∧ (s.heard p).now = s.now ∧ (s.heard p).cu = s.cu ∧ (s.heard p).wt = s.wt ∧
    (s.heard p).ca = s.ca ∧ (s.heard p).fs = s.fs ∧ (s.heard p).ld = s.ld ∧ (s.heard p).sq = s.sq ∧
    (s.heard p).hc.seq = s.hc.seq ∧ (s.heard p).jn = s.jn ∧ (s.heard p).li = s.li ∧ (s.heard p).sp = s.sp ∧
    (s.heard p).pi.outQueue = s.pi.outQueue ∧ (s.heard p).pi.driveSlot = s.pi.driveSlot ∧
    (s.heard p).pi.headSlot = s.pi.headSlot ∧ (s.heard p).pi.masks = s.pi.masks ∧
    (s.heard p).pi.sendStart = s.pi.sendStart := by
  cases p <;> simp [State.heard, State.setReceiver]

/-! ### Answering (R164, R166, R170) -/

@[simp] theorem State.answered_frame (p : Port) (code : Byte) (status : Status) (data : List Byte)
    (s : State) :
    SameBase (s.answered p code status data) s ∧ (s.answered p code status data).now = s.now ∧
    (s.answered p code status data).cu = s.cu ∧ (s.answered p code status data).wt = s.wt ∧
    (s.answered p code status data).ca = s.ca ∧ (s.answered p code status data).fs = s.fs ∧
    (s.answered p code status data).ld = s.ld ∧ (s.answered p code status data).sq = s.sq ∧
    (s.answered p code status data).hc = s.hc ∧ (s.answered p code status data).jn = s.jn ∧
    (s.answered p code status data).li = s.li ∧ (s.answered p code status data).sp = s.sp ∧
    (s.answered p code status data).pi.latches = s.pi.latches ∧
    (s.answered p code status data).pi.masks = s.pi.masks ∧
    (s.answered p code status data).pi.linkDue = s.pi.linkDue ∧
    (s.answered p code status data).pi.receivers = s.pi.receivers := by
  cases p <;> simp [State.answered, State.queueAnswer, State.putSlot]

/-! ### Taking a request (R164, R166, R169) -/

/-- The answer's fields of a reply. -/
def State.answeredWith (p : Port) (code : Byte) (r : State × Reply) : State :=
  r.1.answered p code r.2.status r.2.data

/-- A valid frame that the port accepts: its body acts on the heard state, and its answer is kept. -/
theorem State.deliver_accepted {p : Port} {code : Byte} {args : List Byte} {s : State}
    (body : State → State × Reply) (h : s.accepts p code args)
    (hr : p = .surface → code ≠ reelReportCode) :
    s.deliver code p args body = State.answeredWith p code (body (s.heard p)) := by
  cases p with
  | surface =>
    have hq : ¬ 4 ≤ s.pi.outQueue.length := by have := h.2; simp at this; omega
    simp [State.deliver, State.takeSurface, hr rfl, outputPlaces, State.setReceiver, hq, State.heard,
      State.answeredWith, State.answered, State.formAnswer]
  | drive =>
    have hs := h.2
    simp only at hs
    unfold State.deliver State.takeBus
    simp only [PortInterface.slot]
    split
    · next c a due hw => simp [hs c a due hw, State.heard, State.answeredWith, State.answered,
        State.formAnswer, BusPort.port]
    · rfl
  | head =>
    have hs := h.2
    simp only at hs
    unfold State.deliver State.takeBus
    simp only [PortInterface.slot]
    split
    · next c a due hw => simp [hs c a due hw, State.heard, State.answeredWith, State.answered,
        State.formAnswer, BusPort.port]
    · rfl

/-- A request that the port accepts: rights, then length, then its own act (R169). -/
theorem State.request_accepted {p : Port} {code : Byte} {args : List Byte} {s : State}
    (rights : Port → Bool) (parse : List Byte → Option α) (act : Port → α → State → State × Reply)
    (h : s.accepts p code args) (hr : p = .surface → code ≠ reelReportCode) :
    s.request code rights parse act p args =
      State.answeredWith p code (checkRequest rights parse act p args (s.heard p)) := by
  simp [State.request, State.whenRunning, h.1, State.deliver_accepted _ h hr]

/-- A property that hearing, answering and the act keep is kept by the request, taken or discarded. -/
theorem State.request_keeps {P : State → Prop} {code : Byte} {rights : Port → Bool}
    {parse : List Byte → Option α} {act : Port → α → State → State × Reply} {p : Port}
    {args : List Byte} {s : State}
    (heard : ∀ s, P s → P ((s.setReceiver .surface .hunt).hearSurface))
    (queued : ∀ s a, s.pi.outQueue.length < 4 → P s → P (s.queueAnswer a))
    (slotted : ∀ s b x, P s → P (s.putSlot b x))
    (acted : ∀ a s, P s → P (act p a s).1)
    (queue : ∀ a s, (act p a s).1.pi.outQueue = s.pi.outQueue)
    (h : P s) : P (s.request code rights parse act p args) := by
  have hbody : ∀ s, P s → P (checkRequest rights parse act p args s).1 := by
    intro s hs
    unfold checkRequest
    split
    · split
      · exact acted _ _ hs
      · exact hs
    · exact hs
  have hqueue : ∀ s, (checkRequest rights parse act p args s).1.pi.outQueue = s.pi.outQueue := by
    intro s
    unfold checkRequest
    split
    · split
      · exact queue _ _
      · rfl
    · rfl
  unfold State.request State.whenRunning
  split
  · exact h
  · cases p with
    | surface =>
      have hh := heard _ h
      unfold State.deliver State.takeSurface
      dsimp only
      split
      · exact hbody _ hh
      · split
        · exact hh
        · next hlen =>
          refine queued _ _ ?_ (hbody _ hh)
          rw [hqueue]
          simpa [outputPlaces] using hlen
    | drive =>
      unfold State.deliver State.takeBus
      dsimp only
      split
      · split
        · exact slotted _ _ _ (hbody _ h)
        · exact h
      · exact slotted _ _ _ (hbody _ h)
    | head =>
      unfold State.deliver State.takeBus
      dsimp only
      split
      · split
        · exact slotted _ _ _ (hbody _ h)
        · exact h
      · exact slotted _ _ _ (hbody _ h)

end Sys2Proof.Machine
end

