-- ==== Sys2Proof/Laws/Step.lean ====
section
/-! SUPPORT. What a step can do, said once: a property is kept by every step when every command keeps it
and the few moves below the commands do (ticks, bytes, pins). -/

namespace Sys2Proof.Machine

theorem State.whenRunning_keeps {P : State → Prop} {f : State → State} {s : State}
    (hf : ∀ s, P s → P (f s)) (h : P s) : P (s.whenRunning f) := by
  unfold State.whenRunning
  split
  · exact h
  · exact hf s h

/-- A property that depends on no queue of the model and on little of the port interface. -/
structure WireStable (P : State → Prop) : Prop where
  queues : ∀ s xs ys, P s → P { s with inputs := xs, pending := ys }
  ticked : ∀ s p, P s → P (s.tick p)
  pinned : ∀ s p, P s → P { s with pins := p }
  sensed : ∀ s x, P s → P { s with sp := x }
  ported : ∀ s (x : PortInterface), x.outQueue = s.pi.outQueue → x.latches = s.pi.latches →
    x.masks = s.pi.masks → x.linkDue = s.pi.linkDue → P s → P { s with pi := x }

theorem WireStable.inputs {P : State → Prop} (w : WireStable P) {s : State} {xs : List Wire} (h : P s) :
    P { s with inputs := xs } := w.queues s xs s.pending h

theorem WireStable.pending {P : State → Prop} (w : WireStable P) {s : State} {ys : List Instr} (h : P s) :
    P { s with pending := ys } := w.queues s s.inputs ys h

theorem WireStable.receiver {P : State → Prop} (w : WireStable P) {s : State} {p : Port} {r : Receiver}
    (h : P s) : P (s.setReceiver p r) := w.ported s _ rfl rfl rfl rfl h

theorem WireStable.busByte {P : State → Prop} (w : WireStable P) {s : State} {b : BusPort} {x : Byte}
    {kept : Option (List Byte)} (h : P s) : P (s.busByte b x kept).1 := by
  unfold State.busByte
  split
  · exact h
  · split <;> exact w.receiver h

theorem WireStable.holdWire {P : State → Prop} (w : WireStable P) {s : State} {x : Wire} (h : P s) :
    P (s.holdWire x) := by
  unfold State.holdWire
  split <;> exact w.pinned _ _ h

theorem WireStable.driveByte {P : State → Prop} (w : WireStable P) {s : State} {x : Byte} (h : P s) :
    P (s.driveByte x) := by
  unfold State.driveByte
  dsimp only
  split
  · exact w.ported _ _ rfl rfl rfl rfl h
  · exact w.ported _ _ rfl rfl rfl rfl (w.busByte h)

theorem WireStable.dsckRise {P : State → Prop} (w : WireStable P) {s : State} {mosi : Bool} (h : P s) :
    P (s.dsckRise mosi) := by
  unfold State.dsckRise
  dsimp only
  split
  · split
    · exact w.ported _ _ rfl rfl rfl rfl h
    · exact w.driveByte (w.ported _ _ rfl rfl rfl rfl h)
  · exact h

theorem WireStable.dsckFall {P : State → Prop} (w : WireStable P) {s : State} (h : P s) :
    P s.dsckFall := by
  unfold State.dsckFall
  dsimp only
  split
  · exact w.ported _ _ rfl rfl rfl rfl h
  · exact h

/-! ### Clocks of DSCK (R167) -/

/-- One clock of DSCK inside a byte takes a bit of DMOSI and puts the next bit on DMISO (R167). -/
theorem State.dsck_bit {s : State} {x : Bool} (selected : s.pi.spi.selected = true)
    (low : s.pi.spi.dsck = false) (inside : s.pi.spi.bits.length < 7) :
    (s.dsckRise x).dsckFall = { s with pi := { s.pi with spi := { s.pi.spi with
      bits := s.pi.spi.bits ++ [x], out := s.pi.spi.out.tail, miso := some (s.pi.spi.out.headD false) } } } := by
  have short : s.pi.spi.bits.length + 1 < 8 := by omega
  simp [State.dsckRise, State.dsckFall, selected, low, short]

/-- The eighth clock of a byte hands it over as well (R167). -/
theorem State.dsck_byte {s : State} {x : Bool} (selected : s.pi.spi.selected = true)
    (low : s.pi.spi.dsck = false) (eighth : s.pi.spi.bits.length = 7) :
    (s.dsckRise x).dsckFall =
      let t := s.driveByte (spiByte (s.pi.spi.bits ++ [x]))
      { t with pi := { t.pi with spi := { t.pi.spi with
        out := s.pi.spi.out.tail, miso := some (s.pi.spi.out.headD false) } } } := by
  have whole : ¬ s.pi.spi.bits.length + 1 < 8 := by omega
  simp only [State.dsckRise, selected, low, List.length_append, List.length_singleton, whole, Bool.not_false,
    Bool.and_self, if_true, if_false]
  generalize spiByte (s.pi.spi.bits ++ [x]) = b
  simp only [State.driveByte]
  generalize (s.pi.spi.ignoring || (!s.pi.spi.started && decide (b ≠ 0xA5))) = ignoring
  cases hf : s.pi.spi.frame <;> cases ignoring <;>
    cases hr : (s.pi.receivers.get BusPort.drive.port).take b <;>
    simp [State.busByte, State.dsckFall, hr, selected, low, State.setReceiver]

/-! ### Bytes and signals -/

theorem WireStable.headWrite {P : State → Prop} (w : WireStable P) {s : State} {x : Byte} (h : P s) :
    P (s.headWrite x) := by
  unfold State.headWrite
  dsimp only
  split
  · exact w.ported _ _ rfl rfl rfl rfl (w.busByte h)
  · exact h

theorem WireStable.lrckFall {P : State → Prop} (w : WireStable P) {s : State} (h : P s) :
    P s.lrckFall := by
  unfold State.lrckFall
  dsimp only
  split
  · exact w.sensed _ _ (w.pinned _ _ h)
  · exact h

/-- A property kept by every command is kept by one signal of the outside. -/
theorem State.takeWire_keeps {P : State → Prop} (w : WireStable P)
    (commanded : ∀ i s t, P s → exec i s = .next t → P t)
    {s t : State} {x : Wire} (h : P s) (ht : s.takeWire x = .next t) : P t := by
  have hend : ∀ (b : BusPort) (kept : Option (List Byte)) (s t : State), P s →
      s.endTransfer b kept = .next t → P t := by
    intro b kept s t h ht
    unfold State.endTransfer at ht
    split at ht <;> exact commanded _ _ _ h ht
  have hwrite : ∀ (s t : State), P s → s.endHeadWrite = .next t → P t := by
    intro s t h ht
    have hi : P (s.setI2c .idle [] false) := w.ported _ _ rfl rfl rfl rfl h
    unfold State.endHeadWrite at ht
    split at ht
    · exact hend _ _ _ _ hi ht
    · cases ht; exact hi
  cases x with
  | sample p => cases ht; exact w.ticked _ _ h
  | surfaceByte b stopBit =>
    simp only [State.takeWire, State.surfaceByte] at ht
    have hl : P { s with pi := { s.pi with lastByte := s.now } } := w.ported _ _ rfl rfl rfl rfl h
    split at ht
    · split at ht
      · cases ht; exact w.receiver hl
      all_goals exact commanded _ _ _ hl ht
    · exact commanded _ _ _ h ht
  | driveSelect => cases ht; exact w.ported _ _ rfl rfl rfl rfl h
  | dsckRise mosi => cases ht; exact w.dsckRise h
  | dsckFall => cases ht; exact w.dsckFall h
  | driveRelease =>
    simp only [State.takeWire, State.driveRelease] at ht
    have hl : P { s with pi := { s.pi with spi := ⟨false, false, [], false, false, none, [], none⟩ } } :=
      w.ported _ _ rfl rfl rfl rfl h
    split at ht
    · exact hend _ _ _ _ hl ht
    · cases ht; exact hl
  | headStart address read =>
    simp only [State.takeWire, State.headStart] at ht
    split at ht
    · next s' he =>
      have hs := hwrite _ _ h he
      cases ht
      unfold State.headAddressed
      (repeat' split) <;> exact w.ported _ _ rfl rfl rfl rfl hs
    · next hne => exact absurd ht (hne t)
  | headWrite b => cases ht; exact w.headWrite h
  | headRead =>
    cases ht
    unfold State.headRead
    dsimp only
    split
    · exact w.ported _ _ rfl rfl rfl rfl h
    · exact h
  | headStop => exact hwrite _ _ h ht
  | lrckRise lrd =>
    simp only [State.takeWire, State.lrckRise] at ht
    split at ht
    · cases ht; exact h
    · have hp := w.sensed _ { s.sp with lowSince := none } (w.pinned _ { s.pins with lrck := true } h)
      split at ht
      · split at ht
        · cases ht
          exact w.sensed _ { s.sp with lowSince := none, bits := s.sp.bits ++ [lrd] }
            (w.pinned _ { s.pins with lrck := true } h)
        · refine commanded _ _ _ ?_ ht
          exact hp
      · cases ht
        exact hp
  | lrckFall => cases ht; exact w.lrckFall h

/-- A property kept by every command is kept by every step. -/
theorem step_keeps {P : State → Prop} (w : WireStable P)
    (commanded : ∀ i s t, P s → exec i s = .next t → P t)
    {s t : State} (h : P s) (ht : step s = .next t) : P t := by
  unfold step at ht
  split at ht
  · exact commanded _ _ _ (w.pending h) ht
  · unfold State.idle at ht
    split at ht
    · split at ht
      · cases ht; exact w.holdWire (w.inputs h)
      · cases ht; exact h
    · split at ht
      · exact commanded _ _ _ h ht
      · split at ht
        · exact State.takeWire_keeps w commanded (w.inputs h) ht
        · cases ht; exact w.ticked _ _ h

end Sys2Proof.Machine
end

