-- ==== Sys2Proof/Tests/Slice0.lean ====
section
/-! SUPPORT. Our own tests: terms that WellFormed refuses, the manual's worked values, and for each
obligation with hypotheses a state and operands that meet them. -/

open Sys2Proof Sys2Proof.Machine

namespace Sys2Proof.Tests

/-! ### Helpers -/

/-- The next state of an outcome; the reset state where there is none. -/
def after (x : Host.Outcome State Fault Refusal) : State :=
  match x with
  | .next t => t
  | _ => .reset

/-- One command after another. -/
def runs (s : State) (cs : List Instr) : State := cs.foldl (fun s c => after (exec c s)) s

abbrev rs : State := State.reset

/-- The reset state with another chainage unit. -/
def withCu (f : Chainage → Chainage) : State := { rs with cu := f rs.cu }

/-- The reset state with a halt sequence. -/
def halted (q : HaltSeq) : State := { rs with hc := ⟨some q, false⟩ }

/-- A sequence of kind HALT, or HALT_STILL of slot 3 and the drive controller, in a state. -/
def seqOf (kind : HaltKind) (state : HaltState) (settle : SettleTimer) : HaltSeq :=
  { state := state, kind := kind, origin := .waypoint 3 .drive, unconfirmed := false, moved := false
    stillMark := .none, haltDue := if state = .standing then none else some 500, settle := settle }

/-- A frame record. -/
def frameOf (n : Word32) (luma : Option Nat) : FrameRecord :=
  { newRecord n none false ⟨8000, 300, .all 75, 256, 2400000, 60, true, false, false⟩ with luma := luma }

/-- The reset state with the frames given, in a phase. -/
def framed (phase : FramePhase) (ring : List FrameRecord) : State :=
  { rs with fs := { rs.fs with phase := phase, ring := ring, frameNumber := 7 } }

/-- A stored record with a text of n bytes. -/
def noteOf (seq n : Nat) : Record := ⟨seq, rs.header, .note (List.replicate n 0)⟩

/-- The reset state with a journal that holds `rs`. -/
def stored (records : List Record) (next : Nat) (cursors : PerPort Nat) : State :=
  { rs with jn := { rs.jn with store := records, next := next, cursors := cursors } }

/-- With RESET released and the ports as after reset, every port takes a request. -/
theorem accepts_fresh (s : State) (h : s.resetLine = false) (hp : s.pi = rs.pi) (p : Port) (code : Byte)
    (args : List Byte) : s.accepts p code args := by
  refine ⟨h, ?_⟩
  cases p <;> rw [hp]
  · show (0 : Nat) < 4
    decide
  · intro _ _ _ h; cases h
  · intro _ _ _ h; cases h

theorem accepts_reset (p : Port) (code : Byte) (args : List Byte) : rs.accepts p code args :=
  accepts_fresh rs rfl rfl p code args

/-! ### Well-formed terms -/

theorem test_args_of_250_bytes_are_refused : (Instr.note .surface (List.replicate 250 0)).wellFormed = false := by
  decide +kernel

theorem test_args_of_249_bytes_pass : (Instr.note .surface (List.replicate 249 0)).wellFormed = true := by
  decide +kernel

theorem test_unknown_request_with_a_known_code_is_refused :
    (Instr.unknownRequest .drive 0x01 []).wellFormed = false ∧
    (Instr.unknownRequest .drive 0x00 []).wellFormed = true := by decide

/-! ### Formats (ch. 12) -/

theorem test_crc_of_123456789 :
    crc16 [0x31, 0x32, 0x33, 0x34, 0x35, 0x36, 0x37, 0x38, 0x39] = 0x29B1 := by decide +kernel

theorem test_record_lengths :
    (Body.restart).words = 5 ∧ (Body.runOpen .withFlow (List.replicate 9 0x41)).words = 9 ∧
    (Body.lost 1 0).words = 8 ∧ (Body.mark .halt false false 1 none).words = 7 ∧
    (Body.note (List.replicate 32 0)).words = 14 := by decide

theorem test_record_bytes_fill_its_words :
    (Record.bytes ⟨1, rs.header, .runOpen .withFlow (List.replicate 9 0x41)⟩).length = 36 ∧
    (Record.bytes ⟨1, rs.header, .mark (.line 2) true false 3 (some 0x0120)⟩).length = 32 := by decide

theorem test_status_snapshot_is_35_bytes : (rs.snapshot .drive).length = 35 := by decide

/-- A STATUS request byte by byte on SRXD is answered on STXD. -/
theorem test_status_frame_is_received :
    Receiver.hunt.feed (frameBytes [0x01]) = .valid [0x01] ∧ requestOf .surface 0x01 [] = .status .surface [] := by
  decide +kernel

/-- A signal of the outside after another. -/
def signals (s : State) (ws : List Wire) : State := ws.foldl (fun s w => after (s.takeWire w)) s

theorem test_status_bytes_are_answered :
    let s := signals rs ((frameBytes [0x01]).map fun b => .surfaceByte b true)
    s.pi.outQueue.map (fun a => (a.code, a.status, a.data.length)) = [(0x01, .ok, 35)] ∧
    s.pi.receivers.surface = .hunt := by decide +kernel

/-- 10.3: a CLAIM on the drive port is accepted at the release of DCS, and the slot then reads
NOT_READY with its code. -/
theorem test_drive_transaction :
    let bytes := frameBytes [0x20, 0xBC, 0x02]
    let s := signals rs ([.driveSelect] ++
      (bytes.flatMap spiBits).flatMap (fun x => [.dsckRise x, .dsckFall]) ++ [.driveRelease])
    let t := after (exec (.claim .drive [0xBC, 0x02]) s)
    s.pi.driveSlot = .working 0x20 [0xBC, 0x02] 40 ∧ (s.slotRead .drive).status = .notReady ∧
    (t.slotRead .drive).data = [0xBC, 0x02, 0xBC, 0x02, 0] := by decide +kernel

/-- R168: the part acknowledges its own address and the bytes written to it, and no other address. -/
theorem test_i2c_acknowledge :
    (signals rs [.headStart 0x40 false]).pi.i2c.ack = true ∧
    (signals rs [.headStart 0x40 false, .headWrite 0x17]).pi.i2c.ack = true ∧
    (signals rs [.headStart 0x41 false]).pi.i2c.ack = false ∧
    (signals rs [.headStart 0x40 true, .headRead]).pi.i2c.sda = some 0xA5 := by decide +kernel

/-- R141: a block of one byte, 01H, on OVL: start bit, eight bits least significant first, stop bit, and
the line high after it. -/
theorem test_ovl_byte :
    (List.range 12).map (serialLevel [0x01]) =
      [false, true, false, false, false, false, false, false, false, true, true, true] := by decide

/-- R164: the sync byte A5H of an answer on STXD at 115,200 baud, one level in each of its ten bits and in
the next byte's start bit; high before the answer is queued and during RESET. -/
theorem test_stxd_byte :
    let s : State := { rs with pi := { rs.pi with outQueue := [⟨0x29, .ok, 0, []⟩], sendStart := 10 } }
    [10, 28, 45, 63, 80, 97, 115, 132, 149, 167, 184].map (fun now => ({ s with now := now } : State).stxd) =
      [false, true, false, true, false, false, true, false, true, true, false] ∧
    rs.stxd = true ∧ ({ s with now := 10, resetLine := true } : State).stxd = true := by decide +kernel

/-- R167: the first answer bits on DMISO, A5H from its most significant bit on, and a byte sampled from
DMOSI; an edge to the level that DSCK has changes nothing. -/
theorem test_spi_bits :
    let clocked (bits : List Bool) : State := signals rs ([.driveSelect] ++ bits.flatMap fun x => [.dsckRise x, .dsckFall])
    (List.range 8).map (fun n => (clocked (List.replicate n false)).pi.spi.miso) =
      [true, false, true, false, false, true, false, true].map some ∧
    (clocked [true, false, true, false, false, true, false, true]).pi.receivers.drive = .length ∧
    (clocked [true, false, true, false, false, true, false]).pi.receivers.drive = .hunt ∧
    (signals rs [.driveSelect, .dsckFall]).pi.spi.miso = some true ∧
    (signals rs [.driveSelect, .dsckRise true, .dsckRise true]).pi.spi.bits = [true] ∧
    (signals rs [.driveSelect, .driveRelease]).pi.spi.miso = none := by decide +kernel

/-- R186: bits 4 to 7 of a presence mask are ignored. -/
theorem test_unassigned_mask_bits_are_ignored :
    let place (mask : Byte) : Result := exec (.waypointPlace .surface [0, mask, 0x64, 0, 0, 0, 0, 0, 7, 0]) rs
    after (place 0xF2) = after (place 0x02) ∧ (after (place 0xF2)).pi.outQueue.map (fun a => (a.status, a.data)) = [(.ok, [0, 0])] := by
  decide +kernel

/-- R136: a second ATTITUDE after the first is taken too. -/
theorem test_second_attitude :
    let t := after (exec (.attitude .drive [0, 0, 0, 0]) rs)
    (after (exec (.attitude .drive [0xD8, 0xDC, 0xF6, 0xFF]) t)).fs.attitude =
      some ⟨⟨-9000, 3590⟩, 1000000⟩ := by decide +kernel

/-- R189: the gain word at ×1 of frame 3 goes out least significant bit first, FSTART after it. -/
theorem test_gain_word_on_gwd :
    (rs.sendGain ⟨256, 3⟩).sp.pulses =
      List.replicate 8 (.gwck false) ++ [.gwck true] ++ List.replicate 7 (.gwck false) ++
        [.gwck true, .gwck true] ++ List.replicate 6 (.gwck false) ++ [.fstart] := by decide

/-- R189, log 29: after a low period the 24 bits on LRD are one report, tag 1 and luma 2. -/
theorem test_luma_bits :
    let bits := [true] ++ List.replicate 7 false ++ [false, true] ++ List.replicate 14 false
    let s := framed .guard [frameOf 1 none]
    let t := signals { s with sp := { s.sp with armed := true } }
      (bits.flatMap fun b => [.lrckRise b, .lrckFall])
    t.fs.ring.map FrameRecord.luma = [some 2] ∧ t.sp.armed = false ∧ t.sp.bits = [] := by decide +kernel

/-! ### The filters -/

/-- R72: TSAG asserted at the release of RESET is accepted 2 µs later, and no earlier. -/
theorem test_tsag_at_the_release :
    let p : Pins := { Pins.atRest with tsag := true }
    let s := State.powerOn p
    let ticks (n : Nat) : State := (List.replicate n p).foldl (fun s p => s.tick p) s
    (ticks 3).dueSag = none ∧ (ticks 4).dueSag = some .sagAssert ∧ (ticks 4).now = 4 := by decide

/-- R181: a wider debounce width un-ripens the candidate of its line alone; a narrower one that has
already passed waits for the next sample. -/
theorem test_width_written_under_a_candidate :
    let c : Option Candidate := some ⟨40000, true⟩
    let young : Option Candidate := some ⟨39000, false⟩
    let set (c : Option Candidate) (ms : Nat) : State :=
      { rs with
        cfg := { rs.cfg with lines := rs.cfg.lines.set 1 ⟨.mark, .activeLow, ms⟩ }
        li := { rs.li with cands := ⟨c, c, none, none⟩ } }
    ((set c 21).actOnSetting 0x29).li.cands = ⟨c, some ⟨40000, false⟩, none, none⟩ ∧
    ((set c 20).actOnSetting 0x29).li.cands = ⟨c, c, none, none⟩ ∧
    ((set young 10).actOnSetting 0x29).li.cands = ⟨young, young, none, none⟩ ∧
    filterSample true false 20000 young = some ⟨39001, true⟩ := by decide

/-! ### Worked sequences -/

/-- 1.2: the wheel residual. -/
theorem test_wheel_residual :
    let s := withCu fun c => { c with wheelTrack := 1000, wheelResidual := 800 }
    let show_ := fun s : State => (s.cu.wheelResidual, s.cu.wheelTrack)
    let one := s.wheelStep true
    let two := one.wheelStep false
    let five := ((two.wheelStep false).wheelStep false).wheelStep false
    show_ one = (100, 1001) ∧ show_ two = (-200, 1001) ∧ show_ five = (-100, 1000) := by decide +kernel

/-- 1.3: reel reports. -/
theorem test_reel_reports :
    let s : State := { withCu (fun c => { c with
        cableTrack := 8000, cableResidual := 600, reelSeed := some 40000, cableLost := false }) with
      cfg := { rs.cfg with reelScale := 1250 } }
    let show_ := fun s : State => (s.cu.cableTrack, s.cu.cableResidual, s.cu.reelSeed)
    let one := s.takeReel 40350
    let two := one.takeReel 40350
    let three := two.takeReel 45000
    show_ one = (8438, 100, some 40350) ∧ show_ two = show_ one ∧
    show_ three = (8438, 100, some 45000) ∧ show_ (three.takeReel 44990) = (8426, -400, some 44990) := by
  decide +kernel

/-- 1.4: a slip episode, by its window classes. -/
theorem test_slip_episode :
    windowClass 50 500 430 = .slip ∧ windowClass 50 500 445 = .slip ∧ windowClass 50 500 470 = .agree ∧
    windowClass 50 430 500 = .slack ∧ windowClass 50 500 450 = .agree ∧
    afterClass 2 .slip .agree none = (.agree, some (.slip, 1)) ∧
    afterClass 2 .slip .agree (some (.slip, 1)) = (.slip, none) ∧
    afterClass 2 .slack .slip (some (.agree, 1)) = (.slip, some (.slack, 1)) ∧
    afterClass 2 .agree .slip (some (.slack, 1)) = (.slip, some (.agree, 1)) := by decide

/-- 1.7: velocity around a re-reference. -/
theorem test_velocity_around_a_rereference :
    let s := withCu fun c => { c with
      chainage := 10260, history := [10200, 10205, 10215, 10225, 10230, 10240, 10245, 10255] }
    let one := s.gate
    let two := one.rereference 0 .zero
    let three := ({ two with cu := { two.cu with chainage := 10 } }).gate
    one.cu.velocity = 300 ∧ two.cu.history = [-55, -45, -35, -30, -20, -15, -5, 0] ∧
    two.cu.velocity = 300 ∧ two.cu.epoch = 2 ∧ three.cu.velocity = 325 := by decide +kernel

/-- 3.4: a repeating MARK under cable increments. -/
theorem test_repeating_mark :
    let e : Waypoint := ⟨.surface, 20000, .rising, .mark, some 0x0120, some 5000, some 5⟩
    afterFiring e 31190 = (.armed { e with point := 35000, remaining := some 2 } .below, 3) ∧
    afterFiring { e with point := 40000, remaining := some 1 } 45000 =
      (.spent { e with point := 40000, remaining := some 0 }, 2) ∧
    afterFiring ⟨.head, 12000, .falling, .mark, none, some 1000, none⟩ 9500 =
      (.armed ⟨.head, 9000, .falling, .mark, none, some 1000, none⟩ .above, 3) := by decide

/-- 4.5: claims across two boundaries, from AUX's deferred claim to its grant. -/
theorem test_claims_across_boundaries :
    let s : State := { rs with ca := { rs.ca with
      claims := ⟨⟨0, 0, .settled⟩, ⟨700, 700, .settled⟩, ⟨0, 0, .settled⟩⟩, commit := 158 } }
    let asked := (((s.takeClaim .head 250).1.takeClaim .drive 1000).1.takeClaim .surface 60).1
    let waited := (asked.handInCommit 100).expireClaim .drive
    let done := waited.handInCommit 171
    asked.ca.queue = [.drive, .surface] ∧ asked.lampAllowance = 100 ∧ waited.freeCurrent = 150 ∧
    waited.lampAllowance = 190 ∧ done.ca.queue = [] ∧ done.ca.claims.surface = ⟨60, 60, .settled⟩ ∧
    done.freeCurrent = 19 ∧ done.pi.latches = ⟨Event.bit .grant, Event.bit .expired, 0⟩ := by decide +kernel

/-- The inputs of the worked allocations of 5.5. -/
def allocation (m pd al : Nat) (v : Int) : Allocation :=
  { rs.allocation none false with
    mode := .strobe, report := some (m, pd), velocity := v, allowance := al, weights := .all 4, channelMax := 800 }

/-- 5.5: blur-limited, budget-limited and too bright. -/
theorem test_worked_allocations :
    let blur := (allocation 320 5000000 500 150).run
    let budget := (allocation 320 5000000 150 300).run
    let bright := (allocation 1000 200000 1100 0).run
    (blur.t, blur.d, blur.g, blur.pd, blur.commit) = (3333, 1876, 256, 6252708, 158) ∧
    (budget.t, budget.d, budget.g, budget.pd, budget.commit) = (1666, 2400, 401, 6263118, 102) ∧
    (bright.t, bright.d, bright.g, bright.pd, bright.commit) = (2500, 40, 256, 100000, 3) ∧
    bright.overlit = false := by decide +kernel

/-- 6.4: the worked distributions. -/
theorem test_worked_distributions :
    distribute 1876 ⟨4, 4, 4, 4⟩ 800 = ⟨469, 469, 469, 469⟩ ∧
    distribute 1000 ⟨3, 3, 0, 1⟩ 800 = ⟨430, 428, 0, 142⟩ ∧
    distribute 2400 ⟨8, 4, 2, 1⟩ 800 = ⟨800, 640, 320, 160⟩ ∧
    distribute 2000 ⟨15, 1, 1, 0⟩ 800 = ⟨800, 117, 117, 0⟩ ∧
    distribute 500 ⟨0, 0, 0, 0⟩ 800 = ⟨125, 125, 125, 125⟩ := by decide

/-- 5.4: reports through the ring, from boundary 255 to boundary 257. -/
theorem test_reports_through_the_ring :
    let shed : FrameRecord := { frameOf 254 none with flags := { (frameOf 254 none).flags with shed := true } }
    let ring := [frameOf 251 none, frameOf 252 (some 388), frameOf 253 (some 402), shed]
    let next := joinRing (frameOf 255 none) ring
    (usableReport (some 252) ring).map (·.number) = some 253 ∧
    next.map (·.number) = [252, 253, 254, 255] ∧ usableReport (some 253) next = none := by decide +kernel

/-- 6.6: PWM pairs of 469 mA and 600 mA at 800 mA. -/
theorem test_pwm_pairs : pwmPair 800 469 = ⟨600, 424, 800⟩ ∧ pwmPair 800 600 = ⟨768, 256, 800⟩ := by decide

/-- 7.1: the queue under pressure: the halt still takes the place of the newest entry. -/
theorem test_halt_still_overtakes :
    let s : State := { rs with sq :=
      [⟨.port .head, some 0x44, false⟩, ⟨.waypoint 5, none, false⟩, ⟨.port .drive, none, false⟩,
        ⟨.line 1, none, false⟩] }
    let t := s.insertHaltStill false
    (actStill .surface (some 2) s).2 = bare .full ∧
    t.sq = [⟨.halt, none, false⟩, ⟨.port .head, some 0x44, false⟩, ⟨.waypoint 5, none, false⟩,
      ⟨.port .drive, none, false⟩] ∧
    t.jn.store.map (·.body) = [.mark (.line 1) false true 1 none] := by decide +kernel

/-- 8.1: a roll of −15 is stored as 3,585, and a zoom step of 0 as 1. -/
theorem test_posted_attributes :
    storedAttitude 250 (-15) = ⟨250, 3585⟩ ∧ storedPose 1800 (-120) 0 = ⟨1800, -120, 1⟩ ∧
    storedAttitude 9001 3605 = ⟨9000, 5⟩ := by decide

/-- 9.3: HOLD under a lagging reader, with a store of large records. -/
theorem test_hold_drops_then_reports :
    let s : State := { stored [noteOf 1 32696, noteOf 2 16] 3 ⟨1, 1, 3⟩ with
      jn := { (stored [noteOf 1 32696, noteOf 2 16] 3 ⟨1, 1, 3⟩).jn with mode := .hold } }
    let dropped := s.journal (.restart)
    let read := dropped.setCursor .surface 2
    let kept := read.journal (.restart)
    usedWords s.jn.store = 8190 ∧ dropped.jn.dropCount = 1 ∧ dropped.jn.firstDrop = some 0 ∧
    dropped.jn.next = 3 ∧ kept.jn.next = 5 ∧ kept.jn.dropCount = 0 ∧
    kept.jn.store.map (·.seq) = [2, 3, 4] := by decide +kernel

/-- 11.2: a RESTART during a halt. -/
theorem test_restart_during_a_halt :
    let s : State := { halted { seqOf .haltStill .standing .stopped with stillMark := .queued } with
      sq := [⟨.halt, none, false⟩, ⟨.port .surface, none, false⟩]
      pi := { rs.pi with latches := ⟨0, Event.bit .grant, 0⟩ } }
    let t := s.restart false
    t.hc.seq = none ∧ t.sq = [] ∧ t.jn.next = 2 ∧
    t.pi.latches = .all (Event.bit .restart ||| Event.bit .journal) := by decide +kernel

/-- 12.2: a line's function of −1 or 5 is out of range. -/
theorem test_line_function_range :
    (Settings.default.put 0x20 (-1)).isNone = true ∧ (Settings.default.put 0x20 5).isNone = true ∧
    ((Settings.default.put 0x23 4).map fun c => c.lines.c3.function) = some .resume ∧
    (Settings.default.put 0x2C 1).isNone = true := by decide

/-! ### Witnesses: the hypotheses of each obligation are met

Each theorem is named after its obligation and gives, for each clause, a state and operands at a
boundary of the clause. Obligations without hypotheses have none. -/

theorem witness_ResetHoldsThePart :
    ∃ (i : Instr) (s : State), s.resetLine = true ∧ i ≠ .resetAssert ∧ i ≠ .resetRelease :=
  ⟨.velocityGate, { rs with resetLine := true }, rfl, by decide, by decide⟩

theorem witness_HearingRestoresTheLink :
    rs.hc.linkHalt = false ∧ ∃ s : State, s.hc.linkHalt = true ∧ s.hc.seq = none :=
  ⟨rfl, { rs with hc := ⟨none, true⟩ }, rfl, rfl⟩

theorem witness_UnknownOrForbiddenRequest :
    (asRequest (.configSet .drive []) = some (.drive, 0x04, []) ∧ mayIssue .drive 0x04 = false ∧
      rs.accepts .drive 0x04 []) ∧
    (asRequest (.haltAck .surface []) = some (.surface, 0x2A, []) ∧ mayIssue .surface 0x2A = false ∧
      rs.accepts .surface 0x2A []) ∧
    (0x00 ∉ requestCodes ∧ 0x4A ∉ requestCodes ∧ rs.accepts .head 0x00 []) :=
  ⟨⟨rfl, rfl, accepts_reset _ _ _⟩, ⟨rfl, rfl, accepts_reset _ _ _⟩, by decide, by decide, accepts_reset _ _ _⟩

theorem witness_WrongLengthIsRefused :
    (asRequest (.status .head [0]) = some (.head, 0x01, [0]) ∧ mayIssue .head 0x01 = true ∧
      lengthAllowed 0x01 [0] = false ∧ rs.accepts .head 0x01 [0]) ∧
    (asRequest (.note .surface (List.replicate 33 0)) = some (.surface, 0x49, List.replicate 33 0) ∧
      mayIssue .surface 0x49 = true ∧ lengthAllowed 0x49 (List.replicate 33 0) = false ∧
      lengthAllowed 0x49 (List.replicate 32 0) = true) ∧
    (mayIssue .surface 0x14 = true ∧ lengthAllowed 0x14 [1, 2, 3] = false) :=
  ⟨⟨rfl, rfl, rfl, accepts_reset _ _ _⟩, ⟨rfl, rfl, rfl, rfl⟩, rfl, rfl⟩

theorem witness_FullOutputQueue :
    let a : Answer := ⟨0x01, .ok, 0, []⟩
    let s : State := { rs with pi := { rs.pi with outQueue := [a, a, a, a] } }
    asRequest (.status .surface []) = some (.surface, 0x01, []) ∧ (0x01 : Byte) ≠ 0x14 ∧
    s.resetLine = false ∧ 4 ≤ s.pi.outQueue.length := by decide

theorem witness_AnswerSlot :
    rs.resetLine = false ∧ rs.pi.slot .drive = .empty ∧
    (∃ s : State, s.pi.slot .drive = .working 0x01 [] 40) ∧ ∃ s : State, ∃ a, s.pi.slot .head = .held a :=
  ⟨rfl, rfl, ⟨{ rs with pi := { rs.pi with driveSlot := .working 0x01 [] 40 } }, rfl⟩,
    ⟨{ rs with pi := { rs.pi with headSlot := .held ⟨0x01, .ok, 0, []⟩ } }, _, rfl⟩⟩

theorem witness_SurfaceTimers :
    rs.resetLine = false ∧ rs.pi.receivers.surface = .hunt ∧ rs.pi.outQueue = [] ∧
    (∃ s : State, s.resetLine = false ∧ s.pi.receivers.surface ≠ .hunt) ∧
    ∃ s : State, s.resetLine = false ∧ ∃ a rest, s.pi.outQueue = a :: rest :=
  ⟨rfl, rfl, rfl, ⟨{ rs with pi := { rs.pi with receivers := ⟨.length, .hunt, .hunt⟩ } }, rfl, by decide⟩,
    ⟨{ rs with pi := { rs.pi with outQueue := [⟨0x01, .ok, 0, []⟩] } }, rfl, _, _, rfl⟩⟩

theorem witness_LinkTimeout :
    rs.resetLine = false ∧ rs.pi.linkDue = some 4000000 ∧
    ∃ s : State, s.resetLine = false ∧ s.pi.linkDue = none :=
  ⟨rfl, rfl, ⟨{ rs with pi := { rs.pi with linkDue := none } }, rfl, rfl⟩⟩

/-- Every request that needs no more than an accepting port: at reset each port accepts each. -/
theorem witness_accepting_ports : ∀ p code args, rs.accepts p code args := accepts_reset

theorem witness_ConfigSetRefuses :
    parameterRange rs.cfg 0x00 = none ∧ parameterRange rs.cfg 0x0F = some (20, 38000) ∧
    (word 0x71 0x94 0 0).toInt = 38001 ∧ (word 0x13 0 0 0).toInt = 19 ∧
    ((word 0x64 0 0 0).toInt = 100 ∧ ∃ s : State, s.accepts .surface 0x04 [0x0B, 0x64, 0, 0, 0] ∧
      100 < s.ca.granted + max s.ca.commit s.cfg.lampFloor) ∧
    rs.ca.granted + max rs.ca.commit rs.cfg.lampFloor ≤ 100 ∧
    ((word 0xE8 0x03 0 0).toInt = 1000 ∧ rs.ca.granted + max rs.ca.commit 1000 ≤ rs.cfg.tetherAllowance) :=
  ⟨rfl, rfl, by decide, by decide,
    ⟨by decide, { rs with ca := { rs.ca with commit := 101 } }, accepts_fresh _ (by rfl) (by rfl) _ _ _, by decide⟩,
    by decide, by decide, by decide⟩

theorem witness_ConfigSetWrites :
    parameterRange rs.cfg 0x0E = some (10000, 100000) ∧ (word 0x10 0x27 0 0).toInt = 10000 ∧
    (word 0xA0 0x86 0x01 0).toInt = 100000 ∧ parameterRange rs.cfg 0x0A = some (-100000, 3000000) ∧
    (word 0x60 0x79 0xFE 0xFF).toInt = -100000 ∧ parameterRange rs.cfg 0x07 = some (50, 2000) ∧
    parameterRange rs.cfg 0x18 = some (0, 60000) ∧ parameterRange rs.cfg 0x08 = some (0, 255) ∧
    parameterRange rs.cfg 0x2B = some (1, 255) ∧ rs.accepts .surface 0x04 [0x18, 0, 0, 0, 0] ∧
    (let s : State := { withCu (fun c => { c with silenceStart := some 0 }) with now := 100000 }
     s.accepts .surface 0x04 [0x07, 50, 0, 0, 0] ∧ s.cu.silenceStart = some 0 ∧
     (word 50 0 0 0).toInt * 2000 ≤ (s.now - 0 : Nat)) :=
  ⟨rfl, by decide, by decide, rfl, by decide, rfl, rfl, rfl, rfl, accepts_reset _ _ _,
    accepts_fresh _ (by rfl) (by rfl) _ _ _, rfl, by decide⟩

theorem witness_ReReference :
    half 0x01 0 = rs.cu.epoch ∧ half 0 0 = 0 ∧ half 0x02 0 ≠ 0 ∧ half 0x02 0 ≠ rs.cu.epoch ∧
    rs.accepts .surface 0x13 [0, 0, 0, 0, 1, 0] :=
  ⟨by decide, by decide, by decide, by decide, accepts_reset _ _ _⟩

theorem witness_Runs :
    rs.cu.runState = .idle ∧ rs.accepts .surface 0x11 [] ∧
    (let s := withCu fun c => { c with runState := .survey }
     s.cu.runState = .survey ∧ s.accepts .surface 0x11 [] ∧ s.accepts .surface 0x10 [0, 0, 0, 0, 1] ∧
     s.jn.mode = .wrap ∧ s.jn.dropCount = 0 ∧ s.jn.next + 3 ≤ 4294967295) ∧
    (List.replicate 16 (0 : Byte)).length ≤ 16 :=
  ⟨rfl, accepts_reset _ _ _,
    ⟨rfl, accepts_fresh _ (by rfl) (by rfl) _ _ _, accepts_fresh _ (by rfl) (by rfl) _ _ _, rfl, rfl, by decide⟩, by decide⟩

/-- Both turns of the wheel from 00, with a whole millimetre and without, trusted and not. -/
theorem witness_WheelStep :
    rs.resetLine = false ∧ rs.cu.wheelResidual.natAbs ≤ 999 ∧ rs.cu.phaseA = false ∧ rs.cu.phaseB = false ∧
    rs.cu.trusted = .wheel ∧ (0 + (300 : Int)).tdiv 1000 = 0 ∧
    (let s := withCu fun c => { c with wheelResidual := 999, trusted := .cable }
     s.cu.wheelResidual.natAbs ≤ 999 ∧ (s.cu.wheelResidual + 300).tdiv 1000 = 1 ∧ s.cu.trusted ≠ .wheel) ∧
    (let s := withCu fun c => { c with wheelResidual := 999 }
     s.cu.trusted = .wheel ∧ (s.cu.wheelResidual + 300).tdiv 1000 = 1 ∧ s.cu.chainage = 0) := by
  decide

theorem witness_IllegalTransition :
    rs.resetLine = false ∧ rs.cu.illegalCount ≠ 7 ∧
    (let s := withCu fun c => { c with illegalCount := 7 }
     s.resetLine = false ∧ s.cu.illegalCount = 7 ∧ s.cu.wheelFault = false) ∧
    (let s := withCu fun c => { c with illegalCount := 7, wheelFault := true }
     s.cu.illegalCount = 7 ∧ s.cu.wheelFault = true) := by decide

theorem witness_WindowClose :
    (let s := withCu fun c => { c with wheelTrack := 499, cableTrack := -499 }
     (s.cu.wheelTrack - s.cu.window.wheelMark).toInt.natAbs < s.cu.window.w ∧
     (s.cu.cableTrack - s.cu.window.cableMark).toInt.natAbs < s.cu.window.w) ∧
    (let s := withCu fun c => { c with wheelTrack := -500 }
     s.cu.window.w ≤ (s.cu.wheelTrack - s.cu.window.wheelMark).toInt.natAbs) := by decide

theorem witness_ReelReportSeedsOrJumps :
    rs.resetLine = false ∧ rs.cu.reelSeed = none ∧
    (let s := withCu fun c => { c with reelSeed := some 0 }
     s.resetLine = false ∧ s.cu.reelSeed = some 0 ∧
     s.cfg.reelJumpLimit < (word 0xD1 0x07 0 0 - 0).toInt.natAbs ∧
     ¬ s.cfg.reelJumpLimit < (word 0xD0 0x07 0 0 - 0).toInt.natAbs) := by decide

theorem witness_ReelReportAppliesItsDelta :
    let s := withCu fun c => { c with
      reelSeed := some 0, cableLost := false, cableResidual := -999, trusted := .cable }
    let lost := withCu fun c => { c with reelSeed := some 0 }
    s.resetLine = false ∧ s.cu.cableLost = false ∧ s.cu.cableResidual.natAbs ≤ 999 ∧
    lost.resetLine = false ∧ lost.cu.cableLost = true ∧ lost.cu.cableResidual.natAbs ≤ 999 ∧
    lost.cu.reelSeed = some 0 ∧ s.cu.reelSeed = some 0 ∧ (word 0xD0 0x07 0 0 - 0).toInt.natAbs ≤ s.cfg.reelJumpLimit ∧
    (s.cu.cableResidual + 2000 * s.cfg.reelScale).tdiv 1000 = 1999 ∧
    (word 0 0 0 0 - 0).toInt.natAbs ≤ s.cfg.reelJumpLimit := by decide

theorem witness_Silence :
    rs.resetLine = false ∧ rs.cu.silenceStart = none ∧
    ∃ s : State, s.resetLine = false ∧ s.cu.silenceStart = some 0 :=
  ⟨rfl, rfl, withCu fun c => { c with silenceStart := some 0 }, rfl, rfl⟩

theorem witness_Gate :
    rs.resetLine = false ∧ rs.hc.seq = none ∧ ∃ oldest rest, rs.cu.history = oldest :: rest :=
  ⟨rfl, rfl, _, _, rfl⟩

theorem witness_GateMovesTheHalt :
    (let q := seqOf .halt .asked .stopped
     (halted q).hc.seq = some q ∧ q.state = .asked) ∧
    (let q := seqOf .haltStill .settling .waiting
     q.state = .settling ∧ (halted q).cu.velocity = 0 ∧ (∀ due, q.settle ≠ .running due) ∧
     (halted q).cfg.settleTime ≠ 0) ∧
    (let q := seqOf .halt .settling (.running 5)
     q.state = .settling ∧ (halted q).cu.velocity = 0 ∧ q.settle = .running 5) ∧
    (let q := seqOf .halt .standing .stopped
     let s : State := { halted q with cu := { rs.cu with velocity := -5 } }
     s.hc.seq = some q ∧ q.state = .standing ∧ s.cu.velocity ≠ 0 ∧ q.moved = false) :=
  ⟨⟨rfl, rfl⟩, ⟨rfl, rfl, nofun, by decide⟩, ⟨rfl, rfl, rfl⟩, ⟨rfl, rfl, by decide, rfl⟩⟩

theorem witness_SettleTimeOfZero :
    let q := seqOf .haltStill .settling .waiting
    let s : State := { halted q with cfg := { rs.cfg with settleTime := 0 } }
    s.hc.seq = some q ∧ q.state = .settling ∧ s.cu.velocity = 0 ∧ s.cfg.settleTime = 0 := by decide

/-- A valid PLACE of each kind of slot and its boundary values, and one that is not valid. -/
theorem witness_WaypointPlace :
    (BitVec.ofInt 32 (-100000)).toInt = -100000 ∧ (BitVec.ofInt 32 3000000).toInt = 3000000 ∧
    (∀ p code args, rs.accepts p code args) ∧ (∀ i e sd, rs.slot i ≠ .armed e sd) ∧
    (∃ s : State, (∀ i e sd, s.slot i = .armed e sd → e.owner = .head) ∧ ∀ i, ∃ e sd, s.slot i = .armed e sd) := by
  refine ⟨by decide, by decide, accepts_reset, fun i e sd h => ?_, ?_⟩
  · have : rs.slot i = .free := by simp [State.slot, rs, State.reset, State.powerOn]
    rw [this] at h; cases h
  · let e : Waypoint := ⟨.head, 0, .rising, .mark, none, none, none⟩
    have hs : ∀ i, State.slot i { rs with wt := Vector.replicate 16 (.armed e .below) } = .armed e .below := by
      intro i; simp [State.slot]
    refine ⟨{ rs with wt := Vector.replicate 16 (.armed e .below) }, fun i x sd h => ?_, fun i => ⟨e, .below, hs i⟩⟩
    rw [hs] at h; cases h; rfl

theorem witness_WaypointClearAndRead :
    16 ≤ (16 : Byte).toNat ∧ (15 : Byte).toNat = (15 : Fin 16).val ∧ (0 : Byte).toNat = (0 : Fin 16).val ∧
    rs.accepts .drive 0x19 [15] ∧ rs.accepts .drive 0x1A [16] :=
  ⟨by decide, by decide, by decide, accepts_reset _ _ _, accepts_reset _ _ _⟩

theorem witness_Firing :
    let e : Waypoint := ⟨.surface, 100, .rising, .mark, none, some 1, none⟩
    e.interval = some 1 ∧ 1 ≤ 1 ∧ e.sense = .rising ∧ e.point ≤ 100 ∧
    (99 : Int) < ({ e with sense := .falling } : Waypoint).point ∧
    ({ e with interval := none } : Waypoint).interval = none ∧
    (let s (sense : Sense) (action : Action) (side : Side) : State :=
       rs.setSlot 15 (.armed { e with sense := sense, action := action } side)
     (s .rising (.preset 3) .below).slot 15 = .armed { e with action := .preset 3 } .below ∧ ¬ (100 : Int) < e.point ∧
     (s .falling .haltStill .above).slot 15 = .armed { e with sense := .falling, action := .haltStill } .above ∧
     (99 : Int) < e.point ∧ (s .rising .still .below).sq.length < 4 ∧ (s .rising .halt .below).hc.seq = none ∧
     rs.slot 0 = .free) := by decide

theorem witness_Claims :
    rs.accepts .head 0x20 [0x4D, 0x04] ∧
    ((half 0x4D 0x04).toNat : Int) > (rs.cfg.tetherAllowance : Int) - rs.cfg.lampFloor ∧
    (half 0x4C 0x04).toNat + rs.cfg.lampFloor ≤ rs.cfg.tetherAllowance ∧
    (half 0 0).toNat ≤ (rs.ca.claims.get .head).granted ∧ rs.ca.sag = none ∧ rs.ca.queue = [] ∧
    (((half 0x4C 0x04).toNat - 0 : Nat) : Int) ≤
      (rs.cfg.tetherAllowance : Int) - rs.ca.granted - max rs.ca.commit rs.cfg.lampFloor ∧
    ∃ s : State, s.accepts .head 0x20 [0x4C, 0x04] ∧ s.ca.sag ≠ none :=
  ⟨accepts_reset _ _ _, by decide, by decide, by decide, rfl, rfl, by decide,
    { rs with ca := { rs.ca with sag := some 0 } }, accepts_fresh _ (by rfl) (by rfl) _ _ _, by decide⟩

/-- A queue whose head fits exactly, one whose head is 1 mA too much, and a running claim timer. -/
theorem witness_Serving :
    let s : Nat → State := fun x => { rs with ca := { rs.ca with
      claims := ⟨⟨0, 0, .settled⟩, ⟨0, x, .pending 9⟩, ⟨0, 0, .settled⟩⟩, queue := [.drive] } }
    let free : Nat → Int := fun x =>
      ((s x).cfg.tetherAllowance : Int) - (s x).ca.granted - max (s x).ca.commit (s x).cfg.lampFloor
    (s 1100).ca.queue = [.drive] ∧ (s 1100).ca.sag = none ∧ (1100 : Int) ≤ free 1100 ∧ free 1101 < 1101 ∧
    ((s 1).ca.claims.get .drive).state = .pending 9 ∧ ((s 1).ca.claims.get .head).state = .settled ∧
    (s 1).resetLine = false ∧ rs.ca.queue = [] := by decide

theorem witness_Sag :
    rs.resetLine = false ∧ rs.ca.sag = none ∧ rs.fs.windowOpen = false ∧
    (let f := frameOf 7 none
     let s : State := { framed .expose [f] with fs := { (framed .expose [f]).fs with windowOpen := true } }
     s.resetLine = false ∧ s.ca.sag = none ∧ s.fs.windowOpen = true ∧ s.fs.phase ≠ .none ∧
     s.fs.ring = [] ++ [f]) ∧
    (let s : State := { rs with ca := { rs.ca with sag := some 5 } }
     s.ca.sag = some 5 ∧ (s.now - 5) / 2000 < 4294967296) := by decide

theorem witness_Boundary :
    rs.resetLine = false ∧ rs.ca.sag = none ∧
    ∃ s : State, s.resetLine = false ∧ s.ca.sag ≠ none ∧ s.ld.writtenMode = .steady :=
  ⟨rfl, rfl, { rs with ca := { rs.ca with sag := some 0 }, ld := { rs.ld with writtenMode := .steady } },
    rfl, by decide, rfl⟩

/-- The usable report: with no mark, with a mark before it, and none when the mark stands on it. -/
theorem witness_BoundaryReport :
    let f := frameOf 5 (some 400)
    let ring := [frameOf 4 (some 1023), f, frameOf 6 none]
    (ring.map FrameRecord.number).Nodup ∧ ring = [frameOf 4 (some 1023)] ++ f :: [frameOf 6 none] ∧
    f.luma ≠ none ∧ f.flags.shed = false ∧ (frameOf 6 none).luma = none ∧
    usableReport none ring = some f ∧ usableReport (some 4) ring = some f ∧ usableReport (some 5) ring = none := by
  decide

/-- STEADY after STEADY without a hold, and STROBE. -/
theorem witness_BoundaryLamps :
    let s (mode : LampMode) : State :=
      { framed .guard [frameOf 7 none] with ld := { rs.ld with writtenMode := mode, mode := .steady } }
    (s .steady).resetLine = false ∧ (s .steady).fs.phase ≠ .none ∧ (s .steady).ld.hold = false ∧
    (s .strobe).ld.writtenMode = .strobe ∧
    (after (exec .frameBoundary (s .steady))).ld.hold = false := by decide +kernel

/-- The defaults of 10.8 lie in their ranges. -/
theorem defaults_inRange : rs.cfg.inRange where
  wheelScale := by decide
  reelScale := by decide
  windowLength := by decide
  toleranceFactor := by decide
  confirmCount := by decide
  reelJumpLimit := by decide
  reelSilenceLimit := by decide
  glitchWidth := by decide
  zeroOffset := by decide
  tetherAllowance := by decide
  lampFloor := by decide
  claimTimeout := by decide
  framePeriod := by decide
  userExposure := by decide
  lumaTarget := by decide
  blurLimit := by decide
  dMax := by decide
  dMin := by decide
  gMax := by decide
  dwellLevel := by decide
  journalInterval := by decide
  channelMax := by decide
  dwellTime := by decide
  haltTimeout := by decide
  settleTime := by decide
  debounce := by decide

theorem witness_Allocation :
    (allocation 0 0 0 0).cfg.inRange ∧ 1 ≤ (allocation 0 0 0 0).channelMax ∧
    ({ allocation 0 0 0 0 with weights := ⟨0, 0, 0, 1⟩ } : Allocation).weights.get 0 = 0 :=
  ⟨defaults_inRange, by decide, by decide⟩

/-- The current frame in PRE and in EXPOSE, with and without a sag hold and a capture. -/
theorem witness_StrobeAndExposure :
    let f := frameOf 7 none
    let c : Capture := ⟨rs.cu.published, none, none⟩
    let s := framed .pre [f]
    let held : State := { s with ld := { s.ld with mode := .strobe, hold := true } }
    let taken : FrameRecord := { f with capture := some c }
    s.resetLine = false ∧ s.fs.ring = [] ++ [f] ∧ s.fs.phase = .pre ∧ s.fs.windowOpen = false ∧
    s.ld.mode ≠ .strobe ∧ s.ld.hold = false ∧ held.ld.mode = .strobe ∧ held.ld.hold = true ∧
    (framed .expose [f]).fs.phase = .expose ∧ f.capture = none ∧ taken.capture ≠ none ∧
    (framed .expose [taken]).fs.ring = [] ++ [taken] ∧ rs.fs.phase ≠ .pre := by decide

theorem witness_ExposureEnd :
    let c : Capture := ⟨rs.cu.published, none, none⟩
    let f : FrameRecord := { frameOf 7 none with capture := some c, still := some (haltStillEntry false) }
    let q : HaltSeq := { seqOf .haltStill .standing .stopped with stillMark := .taken }
    let s : State := { framed .expose [f] with hc := ⟨some q, false⟩ }
    s.resetLine = false ∧ s.fs.phase = .expose ∧ s.fs.ring = [] ++ [f] ∧ f.capture = some c ∧
    s.hc.seq = some q ∧ f.still = some (haltStillEntry false) ∧ (haltStillEntry false).source = .halt ∧
    q.kind = .haltStill ∧ q.state = .standing ∧ q.stillMark = .taken ∧
    (framed .expose [{ f with still := none }]).hc.seq = none ∧ (frameOf 7 none).capture = none := by decide

/-- A halt still at the head, with its sequence's mark QUEUED: the boundary makes it TAKEN. -/
theorem witness_BoundaryHaltStill :
    let q : HaltSeq := { seqOf .haltStill .standing .stopped with stillMark := .queued }
    let s : State := { halted q with sq := [haltStillEntry false] }
    s.resetLine = false ∧ s.ca.sag = none ∧ s.sq.head? = some (haltStillEntry false) ∧ q.stillMark = .queued ∧
    (after (exec .frameBoundary s)).hc.seq = some { q with stillMark := .taken } := by decide +kernel

/-- The start bit, the last data bit and the stop bit of the second byte of a block, and the line after
it. -/
theorem witness_Ovl :
    let s (now : Nat) : State := { rs with now := now, sp := { rs.sp with ovlBlock := [0xC3, 0x80], ovlStart := 5 } }
    (s 0).resetLine = false ∧ (s 0).sp.ovlBlock = [0xC3] ++ 0x80 :: [] ∧ (s 15).now = 5 + 10 * [0xC3].length + 0 ∧
    (s 23).now = 5 + 10 * 1 + (7 + 1) ∧ (s 24).now = 5 + 10 * 1 + 9 ∧ (s 25).sp.ovlStart + 10 * 2 ≤ (s 25).now := by
  decide

/-- Edges of LRCK on an empty queue: with the level as it is and changed, before and after a low period,
at the 24th bit; and a low period that has lasted 20 µs. -/
theorem witness_LumaLine :
    let s (w : Wire) (lrck armed : Bool) (bits : List Bool) : State :=
      { rs with
        inputs := [w], pins := { rs.pins with lrck := lrck }
        sp := { rs.sp with bits := bits, armed := armed } }
    (∀ lrck armed : Bool, (s .lrckFall lrck armed []).dueEvent = none) ∧
    (s .lrckFall true false []).inputs = .lrckFall :: [] ∧ (s .lrckFall true false []).pins.lrck = true ∧
    (s (.lrckRise true) false true (List.replicate 23 false)).dueEvent = none ∧
    ((s (.lrckRise true) false true (List.replicate 23 false)).sp.bits ++ [true]).length = 24 ∧
    ((s (.lrckRise true) false true []).sp.bits ++ [true]).length < 24 ∧
    (let low : State := { rs with now := 40 }
     low.sp.lowSince = some 0 ∧ 0 + 40 ≤ low.now ∧ low.cu.candA = none ∧ low.cu.candB = none ∧
     low.ca.tsagCand = none ∧ low.li.cands = .all none ∧ low.pending = [] ∧ low.resetLine = false) := by decide

/-- A ring of four consecutive numbers across 0 in which the second record takes the report. -/
theorem witness_LumaReport :
    let f := frameOf 0xFFFFFFFF none
    let s : State := { framed .pre [frameOf 0xFFFFFFFE none, f, frameOf 0 none, frameOf 1 none] with
      fs := { rs.fs with
        phase := .pre, frameNumber := 1
        ring := [frameOf 0xFFFFFFFE none, f, frameOf 0 none, frameOf 1 none] } }
    s.resetLine = false ∧ s.fs.sound ∧ s.fs.ring.length ≤ 4 ∧
    s.fs.ring = [frameOf 0xFFFFFFFE none] ++ f :: [frameOf 0 none, frameOf 1 none] ∧
    f.number.truncate 8 = (0xFF : Byte) ∧ f.luma = none ∧ f.number ≠ s.fs.frameNumber := by
  refine ⟨rfl, ⟨by decide, ?_, ⟨rfl, rfl, rfl, trivial⟩, by decide⟩, by decide, rfl, rfl, rfl, by decide⟩
  intro r h; cases h; rfl

theorem witness_LampRequests :
    LampMode.steady.code = (2 : Byte).toNat ∧ 2 < (3 : Byte).toNat ∧ (15 : Byte).toNat ≤ 15 ∧
    ¬ (16 : Byte).toNat ≤ 15 ∧ (3 : Byte).toNat = (3 : Fin 4).val ∧ 3 < (4 : Byte).toNat ∧
    rs.accepts .head 0x33 [3] ∧ rs.accepts .surface 0x32 [3, 0, 15, 16, 0] :=
  ⟨by decide, by decide, by decide, by decide, by decide, by decide, accepts_reset _ _ _, accepts_reset _ _ _⟩

theorem witness_PwmAndDwell :
    rs.resetLine = false ∧ rs.ld.pwmStart = none ∧ rs.ld.standstill = some 0 ∧ rs.cfg.dwellTime ≠ 0 ∧
    rs.ld.dwell = false ∧ rs.sq = [] ∧
    (let s : State := { rs with ld := { rs.ld with
       pwmStart := some 0, activePairs := ⟨⟨1024, 0, 800⟩, ⟨600, 424, 800⟩, ⟨0, 1024, 800⟩, ⟨1, 1023, 800⟩⟩
       standstill := none } }
     s.ld.pwmStart = some 0 ∧ (s.ld.activePairs.get 0).off = 0 ∧ (s.ld.activePairs.get 1).off ≠ 0 ∧
     s.ld.standstill = none) := by decide

theorem witness_Still :
    let e : StillEntry := ⟨.port .head, none, false⟩
    let s : Nat → State := fun n => { rs with sq := List.replicate n e }
    (s 3).sq.length < 4 ∧ 4 ≤ (s 4).sq.length ∧ (s 4).sq = [e, e, e] ++ [e] ∧ (s 4).sq.length = 4 := by decide

theorem witness_HaltAndAck :
    rs.accepts .surface 0x29 [] ∧ rs.accepts .drive 0x2A [] ∧ rs.hc.seq = none ∧
    (let q := seqOf .halt .asked .stopped
     (halted q).accepts .drive 0x2A [] ∧ (halted q).hc.seq = some q ∧ q.state = .asked ∧
     (halted q).cu.velocity = 0 ∧ (halted q).cfg.settleTime ≠ 0) ∧
    (let q := seqOf .haltStill .asked .stopped
     let s : State := { halted q with cfg := { rs.cfg with settleTime := 0 } }
     s.accepts .drive 0x2A [] ∧ s.cu.velocity = 0 ∧ s.cfg.settleTime = 0) ∧
    (let q := seqOf .halt .asked .stopped
     let s : State := { halted q with cu := { rs.cu with velocity := 1 } }
     s.accepts .drive 0x2A [] ∧ s.cu.velocity ≠ 0) :=
  ⟨accepts_reset _ _ _, accepts_reset _ _ _, rfl,
    ⟨accepts_fresh _ (by rfl) (by rfl) _ _ _, rfl, rfl, rfl, by decide⟩,
    ⟨accepts_fresh _ (by rfl) (by rfl) _ _ _, rfl, rfl⟩, ⟨accepts_fresh _ (by rfl) (by rfl) _ _ _, by decide⟩⟩

theorem witness_Resume :
    let q := seqOf .halt .standing .stopped
    (∀ p, (halted q).accepts p 0x2B []) ∧ (halted q).hc.seq = some q ∧ q.origin = .waypoint 3 .drive ∧
    (Port.head ≠ .surface ∧ ∀ slot, q.origin ≠ .waypoint slot .head) ∧ rs.hc.seq = none :=
  ⟨fun p => accepts_fresh _ (by rfl) (by rfl) p _ _, rfl, rfl, ⟨by decide, nofun⟩, rfl⟩

theorem witness_HaltTimers :
    (let q := seqOf .haltStill .settling (.running 5)
     (halted q).resetLine = false ∧ (halted q).hc.seq = some q ∧ q.settle = .running 5 ∧
     q.haltDue = some 500 ∧ q.kind = .haltStill) ∧
    (let q := seqOf .halt .asked .stopped
     (halted q).hc.seq = some q ∧ q.haltDue = some 500 ∧ q.kind = .halt) ∧
    (let q := seqOf .halt .standing .stopped
     (halted q).hc.seq = some q ∧ q.haltDue = none ∧ q.settle = .stopped) := by decide

theorem witness_Attributes :
    Port.head ≠ .drive ∧ rs.accepts .head 0x38 [] ∧ rs.accepts .drive 0x38 [0x28, 0x23, 0, 0] ∧
    (half 0x28 0x23).toInt = 9000 ∧ (half 0xD7 0xDC).toInt = -9001 ∧ (half 0xF6 0xFF).toInt = -10 ∧
    (half 0x15 0x0E).toInt = 3605 ∧ rs.accepts .head 0x39 [0, 0, 0x85, 0x03, 0] ∧ (half 0x85 0x03).toInt = 901 ∧
    rs.resetLine = false ∧ rs.fs.attitude = none ∧ rs.fs.pose = none ∧
    (∃ s : State, s.resetLine = false ∧ ∃ x, s.fs.attitude = some x) ∧
    ∃ s : State, s.resetLine = false ∧ ∃ x, s.fs.pose = some x :=
  ⟨by decide, accepts_reset _ _ _, accepts_reset _ _ _, by decide, by decide, by decide, by decide,
    accepts_reset _ _ _, by decide, rfl, rfl, rfl,
    ⟨{ rs with fs := { rs.fs with attitude := some ⟨⟨0, 0⟩, 9⟩ } }, rfl, _, rfl⟩,
    ⟨{ rs with fs := { rs.fs with pose := some ⟨⟨0, 0, 1⟩, 9⟩ } }, rfl, _, rfl⟩⟩

/-- Cursors at N, below base, at base and at N − 1. -/
theorem witness_JournalReads :
    let s := stored [noteOf 5 0, noteOf 6 32] 7 ⟨7, 4, 5⟩
    let base := s.jn.next - s.jn.store.length
    (∀ p code, s.accepts p code []) ∧ s.jn.cursors.get .surface = s.jn.next ∧
    s.jn.cursors.get .drive < base ∧ base ≤ s.jn.cursors.get .head ∧ s.jn.cursors.get .head < s.jn.next ∧
    s.jn.store.length ≤ s.jn.next ∧ s.jn.store[s.jn.cursors.get .head - base]? = some (noteOf 5 0) ∧
    (∀ r ∈ s.jn.store, 4 * r.body.words ≤ 240) :=
  ⟨fun p c => accepts_fresh _ (by rfl) (by rfl) p c _, rfl, by decide, by decide, by decide, by decide, rfl, by decide⟩

theorem witness_JournalPositions :
    let s := stored [noteOf 5 0, noteOf 6 32] 7 ⟨7, 4, 5⟩
    let base := s.jn.next - s.jn.store.length
    s.accepts .head 0x42 [5, 0, 0, 0] ∧ base ≤ (word 5 0 0 0).toNat ∧ (word 7 0 0 0).toNat ≤ s.jn.next ∧
    (word 4 0 0 0).toNat < base ∧ s.jn.next < (word 8 0 0 0).toNat ∧ JournalMode.hold.code = (1 : Byte).toNat ∧
    1 < (2 : Byte).toNat :=
  ⟨accepts_fresh _ (by rfl) (by rfl) _ _ _, by decide, by decide, by decide, by decide, by decide, by decide⟩

theorem witness_MarkAndNote :
    rs.accepts .head 0x48 [1, 0] ∧ Port.head ≠ .drive ∧ rs.accepts .surface 0x49 (List.replicate 32 0x41) ∧
    (List.replicate 32 (0x41 : Byte)).length ≤ 32 :=
  ⟨accepts_reset _ _ _, by decide, accepts_reset _ _ _, by decide⟩

/-- A store that must evict, with no guarded record in WRAP and with one in HOLD. -/
theorem witness_Storing :
    let s := stored [noteOf 1 32696, noteOf 2 16] 3 ⟨1, 1, 3⟩
    let hold : State := { s with jn := { s.jn with mode := .hold } }
    s.jn.dropCount = 0 ∧ s.jn.next < 4294967295 ∧ Body.restart.words ≤ 8192 ∧
    8192 < Body.restart.words + usedWords (s.jn.store.drop 0) ∧ s.jn.mode = .wrap ∧ hold.jn.mode = .hold ∧
    hold.jn.bound.get .surface = true ∧ hold.jn.cursors.get .surface ≤ (noteOf 1 32696).seq := by
  decide +kernel

theorem witness_Hold :
    let s := stored [noteOf 1 0] 2 ⟨1, 1, 1⟩
    let t : State := { s with jn := { s.jn with mode := .hold, dropCount := 3, firstDrop := some 9 } }
    t.jn.mode = .hold ∧ noteOf 1 0 ∈ t.jn.store ∧ t.jn.bound.get .surface = true ∧
    t.jn.cursors.get .surface ≤ (noteOf 1 0).seq ∧ t.jn.dropCount ≠ 0 ∧ t.jn.next + 1 < 4294967295 ∧
    (t.handRecord t.header .restart).2 = 3 := by decide +kernel

/-- Two numbers left with drops counted, and a record that fits with its LOST record after an eviction. -/
theorem witness_LostPair :
    let s := stored [noteOf 4294967292 32696] 4294967293 ⟨4294967292, 1, 1⟩
    let t : JournalMode → State := fun m =>
      { s with jn := { s.jn with mode := m, dropCount := 3, firstDrop := some 9 } }
    (t .wrap).jn.dropCount ≠ 0 ∧ (t .wrap).jn.firstDrop = some 9 ∧ (t .wrap).jn.next + 1 < 4294967295 ∧
    8 + (Body.note (List.replicate 32 0)).words ≤ 8192 ∧
    8192 < 8 + (Body.note (List.replicate 32 0)).words + usedWords ((t .hold).jn.store.drop 0) ∧
    (t .hold).jn.bound.get .surface = true ∧
    (t .hold).jn.cursors.get .surface ≤ (noteOf 4294967292 32696).seq := by decide +kernel

/-- One number left with drops counted, in WRAP and in HOLD with a store that no eviction may empty; and
the exhausted journal. -/
theorem witness_EndOfTheNumbers :
    let s := stored [noteOf 4294967293 32736] 4294967294 ⟨4294967293, 1, 1⟩
    let t : JournalMode → State := fun m =>
      { s with jn := { s.jn with mode := m, dropCount := 3, firstDrop := some 9 } }
    (t .wrap).jn.dropCount ≠ 0 ∧ (t .wrap).jn.firstDrop = some 9 ∧ (t .wrap).jn.next + 1 = 4294967295 ∧
    (t .hold).jn.bound.get .surface = true ∧
    (t .hold).jn.cursors.get .surface ≤ (noteOf 4294967293 32736).seq ∧
    8192 < 8 + usedWords ((t .hold).jn.store.drop 0) ∧
    4294967295 ≤ (stored [] 4294967295 (.all 1)).jn.next := by decide +kernel

theorem witness_LineEdge :
    let s : LineFunction → State := fun f => { rs with cfg := { rs.cfg with lines := .all ⟨f, .activeHigh, 20⟩ } }
    rs.resetLine = false ∧ (rs.cfg.lines.get 2).function = .none ∧ ((s .zero).cfg.lines.get 0).function = .zero ∧
    ((s .still).cfg.lines.get 1).function = .still ∧ ((s .mark).cfg.lines.get 3).function = .mark ∧
    ((s .resume).cfg.lines.get 3).function = .resume ∧ (s .resume).hc.seq = none ∧
    (-100000 ≤ (s .zero).cfg.zeroOffset ∧ (s .zero).cfg.zeroOffset ≤ 3000000) := by decide

/-- Reset with an empty queue: nothing is due, and a sample comes or none; and states with an accepted
change of a phase, of TSAG and of the last line. -/
theorem witness_Filters :
    let s : State := { rs with inputs := [.sample Pins.atRest] }
    let ripe : Option Candidate := some ⟨5, true⟩
    rs.pending = [] ∧ rs.resetLine = false ∧ rs.dueEvent = none ∧ rs.inputs = [] ∧ s.dueEvent = none ∧
    s.inputs = [.sample Pins.atRest] ∧
    ((withCu fun c => { c with candB := ripe }).cu.candB.any Candidate.ripe = true) ∧
    (({ rs with ca := { rs.ca with tsagCand := ripe } } : State).ca.tsagCand.any Candidate.ripe = true) ∧
    rs.cu.candA = none ∧ rs.cu.candB = none ∧ rs.ca.tsagCand = none ∧
    ((({ rs with li := { rs.li with cands := ⟨none, none, none, ripe⟩ } } : State).li.cands.get 3).any
      Candidate.ripe = true) := by decide

theorem witness_Restart :
    rs.accepts .surface 0x05 [1] ∧ 1 < (2 : Byte).toNat ∧ (1 : Byte).toNat ≤ 1 ∧ rs.cu.cableLost = true ∧
    (withCu fun c => { c with cableLost := false }).accepts .surface 0x05 [1] :=
  ⟨accepts_reset _ _ _, by decide, by decide, rfl, accepts_fresh _ (by rfl) (by rfl) _ _ _⟩

/-- The budget holds at reset, and the reset state has a next state. -/
theorem witness_EveryStepKeepsTheBudget : rs.budgetHolds ∧ ∃ t, step rs = .next t :=
  ⟨by unfold State.budgetHolds; decide, _, rfl⟩

theorem witness_EveryStepKeepsThePositionSound : rs.cu.inRange ∧ rs.trustHolds ∧ rs.sidesHold ∧ rs.cfg.inRange := by
  refine ⟨by unfold Chainage.inRange; decide, by unfold State.trustHolds; decide, fun i => ?_, defaults_inRange⟩
  have : rs.slot i = .free := by simp [State.slot, rs, State.reset, State.powerOn]
  rw [this]; trivial

theorem witness_EveryStepKeepsTheJournalSound : rs.jn.sound := by
  refine ⟨by decide, trivial, by decide, by decide, fun p => by cases p <;> decide, by decide, by decide⟩

theorem witness_EveryStepKeepsTheBlocksSound :
    rs.ca.queueHolds ∧ rs.placesHold ∧ rs.fs.sound ∧ rs.hc.sound := by
  refine ⟨⟨by decide, fun p => by cases p <;> (refine ⟨?_, ?_⟩ <;> decide)⟩, by unfold State.placesHold; decide,
    ⟨by decide, ?_, trivial, by decide⟩, ?_⟩
  · intro r h; cases h
  · intro q h; cases h

theorem witness_FrameOfARequest :
    (Instr.note .surface [0x41]).wellFormed = true ∧
    asRequest (.note .surface [0x41]) = some (.surface, 0x49, [0x41]) ∧
    (Instr.unknownRequest .head 0x4A []).wellFormed = true ∧
    asRequest (.unknownRequest .head 0x4A []) = some (.head, 0x4A, []) := by decide

/-- An empty queue with something due and with nothing due, and one during RESET with and without a signal. -/
theorem witness_IdleStep :
    rs.pending = [] ∧ rs.resetLine = false ∧ rs.dueEvent = none ∧
    ({ rs with now := 40 } : State).dueEvent = some .lrckLowPeriod ∧
    (let s : State := { rs with resetLine := true, inputs := [.lrckFall] }
     s.pending = [] ∧ s.resetLine = true ∧ s.inputs = .lrckFall :: []) := by decide

/-- An answer at the first and the last bit of its first byte, and past its end. -/
theorem witness_Stxd :
    let a : Answer := ⟨0x29, .ok, 0, []⟩
    let s (now : Nat) : State := { rs with now := now, pi := { rs.pi with outQueue := [a] } }
    (s 0).resetLine = false ∧ (s 0).pi.outQueue = a :: [] ∧ a.bytes = [] ++ 0xA5 :: a.bytes.tail ∧
    (s 0).pi.sendStart ≤ (s 0).now ∧ (10 * 0 + 0) * 2000000 ≤ (s 0).now * 115200 ∧
    (s 0).now * 115200 < (10 * 0 + 0 + 1) * 2000000 ∧ (10 * 0 + 9) * 2000000 ≤ (s 157).now * 115200 ∧
    (s 157).now * 115200 < (10 * 0 + 9 + 1) * 2000000 ∧
    10 * a.bytes.length * 2000000 ≤ ((s 1400).now - (s 1400).pi.sendStart) * 115200 := by decide +kernel

/-- A byte on SRXD with and without its stop bit, one that goes on with a frame and one that ends it; and a
request of the surface port. -/
theorem witness_SurfaceBytes :
    let s (b : Byte) (stopBit : Bool) : State := { rs with inputs := [.surfaceByte b stopBit] }
    (s 0xA5 true).pending = [] ∧ (s 0xA5 true).resetLine = false ∧ (s 0xA5 true).dueEvent = none ∧
    (s 0 false).dueEvent = none ∧ Receiver.take 0xA5 .hunt = .more .length ∧ Receiver.take 0 .length = .discarded ∧
    rs.pi.receivers.surface = .hunt ∧ (Instr.halt .surface []).wellFormed = true ∧
    asRequest (.halt .surface []) = some (.surface, 0x29, []) := by decide

/-- A request on each bus, a first byte that is no sync byte, and a bus signal on an empty queue. -/
theorem witness_BusTransfers :
    rs.pi.receivers.drive = .hunt ∧ rs.pi.receivers.head = .hunt ∧ rs.pi.i2c.mode ≠ .write ∧
    (Instr.claim .drive [0xBC, 0x02]).wellFormed = true ∧
    asRequest (.claim .drive [0xBC, 0x02]) = some (.drive, 0x20, [0xBC, 0x02]) ∧
    (Instr.pose .head [0, 0, 0, 0, 0]).wellFormed = true ∧
    asRequest (.pose .head [0, 0, 0, 0, 0]) = some (.head, 0x39, [0, 0, 0, 0, 0]) ∧ (0x17 : Byte) ≠ 0xA5 ∧
    ([true, false] : List Bool).length < 8 ∧ ([0x29] : List Byte) ≠ [] ∧ ([0x29] : List Byte).length ≤ 250 ∧
    (let s : State := { rs with inputs := [.driveSelect] }
     s.pending = [] ∧ s.resetLine = false ∧ s.dueEvent = none ∧ s.inputs = [.driveSelect]) := by decide

end Sys2Proof.Tests
end

section
/-! The run's close (R37) and RUN END (R38): what each does to the state, and the obligation on them. -/

namespace Sys2Proof.Machine

/-- Handing the RUN_CLOSE record leaves the chainage unit alone, so closing a run is that record, then
IDLE over the unit as it stood (R37). -/
theorem State.closeRun_eq (implicit : Bool) (s : State) :
    s.closeRun implicit =
      { s.journal (.runClose implicit (s.cu.wheelTrack - s.cu.runWheelBase)
          (s.cu.cableTrack - s.cu.runCableBase)) with cu := { s.cu with runState := .idle } } := by
  simp [State.closeRun]

/-- A close changes the run state of the chainage unit only (R37). -/
@[simp] theorem State.closeRun_cu (implicit : Bool) (s : State) :
    (s.closeRun implicit).cu = { s.cu with runState := .idle } := by
  rw [State.closeRun_eq]

/-- RUN END in IDLE is refused with STATE and changes nothing (R38). -/
theorem actRunEnd_idle {s : State} (p : Port) (u : Unit) (h : s.cu.runState = .idle) :
    actRunEnd p u s = (s, bare .state) := by
  simp [actRunEnd, h]

/-- RUN END in SURVEY closes the run as requested and reports its number and the chainage (R38). -/
theorem actRunEnd_survey {s : State} (p : Port) (u : Unit) (h : s.cu.runState = .survey) :
    actRunEnd p u s = (s.closeRun false, ⟨.ok, le16 s.cu.runNumber ++ s32 s.cu.chainage⟩) := by
  simp [actRunEnd, h]

/-- The surface port has the right to RUN END, so an accepted one is its act on the heard state, then the
answer (R169, R171). -/
theorem exec_runEnd_accepted {s : State} (h : s.accepts .surface 0x11 []) :
    exec (.runEnd .surface []) s =
      .next (State.answeredWith .surface 0x11 (actRunEnd .surface () (s.heard .surface))) := by
  have taken := State.request_accepted surfaceOnly parseNone actRunEnd h (by decide)
  calc exec (.runEnd .surface []) s
      = .next (s.request 0x11 surfaceOnly parseNone actRunEnd .surface []) := rfl
    _ = _ := by rw [taken]; rfl

/-- Settles O17: RUN END is taken on the heard state, whose chainage unit is that of the state before, and
its act is read off by run state. -/
theorem runEndClosesTheRun : Obligations.RunEndClosesTheRun := by
  intro s accepted
  have heard_cu : (s.heard .surface).cu = s.cu := by simp
  refine ⟨fun idle => ?_, fun survey => ⟨(s.heard .surface).closeRun false, ?_, State.closeRun_eq _ _⟩⟩
  · rw [exec_runEnd_accepted accepted, actRunEnd_idle _ _ (heard_cu ▸ idle)]
    rfl
  · rw [exec_runEnd_accepted accepted, actRunEnd_survey _ _ (heard_cu ▸ survey), heard_cu]
    rfl

end Sys2Proof.Machine
end

section
/-! The CLAIM of more than A − F (R62): the first case of 4.3's table, and the obligation on it. -/

namespace Sys2Proof.Machine

/-- The last byte of a claim record tells a SETTLED record from a PENDING one, whatever its timer (4.3). -/
theorem Claim.data_eq (c : Claim) :
    c.data = u16 c.granted ++ u16 c.requested ++ [if c.state = .settled then 0 else 1] := by
  obtain ⟨granted, requested, state⟩ := c
  cases state with
  | settled => rfl
  | pending due => rfl

/-- Above A − F the table's first case holds before the record, its timer or the queue is looked at (R62). -/
theorem State.takeClaim_above {s : State} {x : Nat} (p : Port)
    (above : s.cfg.tetherAllowance < x + s.cfg.lampFloor) : s.takeClaim p x = (s, .range) := by
  simp only [State.takeClaim, if_pos above]

/-- A refused CLAIM leaves the state as it is and shows the asking port's record (R62). -/
theorem actClaim_above {s : State} {x : Half} (p : Port)
    (above : s.cfg.tetherAllowance < x.toNat + s.cfg.lampFloor) :
    actClaim p x s = (s, ⟨.range, (s.ca.claims.get p).data⟩) := by
  simp only [actClaim, State.takeClaim_above p above]

/-- Every port has the right to CLAIM, so an accepted one is its act on the heard state, then the answer
(R169, R171). -/
theorem exec_claim_accepted {p : Port} {b0 b1 : Byte} {s : State} (h : s.accepts p 0x20 [b0, b1]) :
    exec (.claim p [b0, b1]) s =
      .next (State.answeredWith p 0x20 (actClaim p (half b0 b1) (s.heard p))) := by
  have taken := State.request_accepted anyPort parseU16 actClaim h (fun _ => by decide)
  calc exec (.claim p [b0, b1]) s
      = .next (s.request 0x20 anyPort parseU16 actClaim p [b0, b1]) := rfl
    _ = _ := by rw [taken]; rfl

/-- Settles O30: hearing changes neither the settings nor the arbiter, so the heard state refuses X by the
same A and F and shows the record of the state before. -/
theorem claimAboveAMinusFIsRefused : Obligations.ClaimAboveAMinusFIsRefused := by
  intro p b0 b1 s accepted above
  have heard_cfg : (s.heard p).cfg = s.cfg := by simp
  have heard_ca : (s.heard p).ca = s.ca := by simp
  have heard_above : (s.heard p).cfg.tetherAllowance < (half b0 b1).toNat + (s.heard p).cfg.lampFloor := by
    rw [heard_cfg]
    omega
  rw [exec_claim_accepted accepted, actClaim_above p heard_above, heard_ca, Claim.data_eq]
  rfl

end Sys2Proof.Machine
end

section
/-! What every command is made of, said once: a property that each move keeps is kept by every command, and
so by every step. -/

namespace Sys2Proof.Machine

/-- A property that hearing, answering and the body keep is kept by a frame, taken or discarded. -/
theorem State.deliver_keeps {P : State → Prop} {code : Byte} {p : Port} {args : List Byte}
    {body : State → State × Reply} {s : State}
    (heard : ∀ s, P s → P ((s.setReceiver .surface .hunt).hearSurface))
    (queued : ∀ s a, s.pi.outQueue.length < 4 → P s → P (s.queueAnswer a))
    (slotted : ∀ s b x, P s → P (s.putSlot b x))
    (acted : ∀ s, P s → P (body s).1)
    (queue : ∀ s, (body s).1.pi.outQueue = s.pi.outQueue)
    (h : P s) : P (s.deliver code p args body) := by
  have bus : ∀ b, P (s.takeBus b code args body) := by
    intro b
    unfold State.takeBus
    dsimp only
    split
    · split
      · exact slotted _ _ _ (acted _ h)
      · exact h
    · exact slotted _ _ _ (acted _ h)
  cases p with
  | surface =>
    unfold State.deliver State.takeSurface
    dsimp only
    split
    · exact acted _ (heard _ h)
    · split
      · exact heard _ h
      · next room =>
        refine queued _ _ ?_ (acted _ (heard _ h))
        rw [queue]
        simpa [outputPlaces] using room
  | drive => exact bus .drive
  | head => exact bus .head

/-- The moves of which every command is made, and that each keeps a property: hearing a frame, keeping an
answer, the act of each request and each event of the part. A move that the frame laws say leaves the
property's fields as they stand needs no proof of its own. -/
structure KeptByCommands (P : State → Prop) : Prop where
  ported : ∀ s (x : PortInterface), x.outQueue = s.pi.outQueue → x.latches = s.pi.latches →
    x.masks = s.pi.masks → x.linkDue = s.pi.linkDue → P s → P { s with pi := x } := by
      intro s x _ _ _ _ h; simpa using h
  heard : ∀ s, P s → P ((s.setReceiver .surface .hunt).hearSurface) := by intro s h; simpa using h
  queued : ∀ s a, s.pi.outQueue.length < 4 → P s → P (s.queueAnswer a) := by intro s a _ h; simpa using h
  slotted : ∀ s b x, P s → P (s.putSlot b x) := by intro s b x h; simpa using h
  lowPeriod : ∀ s, P s → P s.lowPeriod := by intro s h; simpa [State.lowPeriod] using h
  resetAssert : ∀ s, P s → P { s.outputsAtRest with resetLine := true } := by
    intro s h; simpa [State.outputsAtRest] using h
  resetRelease : ∀ s, P s → P { State.powerOn s.pins with inputs := s.inputs, pending := s.pending }
  status : ∀ p (a : Unit) s, P s → P (actStatus p a s).1 := by intro p a s h; simpa using h
  events : ∀ p (a : Half) s, P s → P (actEvents p a s).1 := by intro p a s h; simpa using h
  configGet : ∀ p (a : Byte) s, P s → P (actConfigGet p a s).1 := by intro p a s h; simpa using h
  configSet : ∀ p (a : Byte × Int) s, P s → P (actConfigSet p a s).1 := by intro p a s h; simpa using h
  restart : ∀ p (a : Byte) s, P s → P (actRestart p a s).1 := by intro p a s h; simpa using h
  runStart : ∀ p (a : Int × Byte × List Byte) s, P s → P (actRunStart p a s).1 := by intro p a s h; simpa using h
  runEnd : ∀ p (a : Unit) s, P s → P (actRunEnd p a s).1 := by intro p a s h; simpa using h
  zero : ∀ p (a : Int) s, P s → P (actZero p a s).1 := by intro p a s h; simpa using h
  setChainage : ∀ p (a : Int × Half) s, P s → P (actSetChainage p a s).1 := by intro p a s h; simpa using h
  reelReport : ∀ p (a : Word32) s, P s → P (actReelReport p a s).1 := by intro p a s h; simpa using h
  waypointPlace : ∀ p (a : PlaceArgs) s, P s → P (actPlace p a s).1 := by intro p a s h; simpa using h
  waypointClear : ∀ p (a : Byte) s, P s → P (actClear p a s).1 := by intro p a s h; simpa using h
  waypointRead : ∀ p (a : Byte) s, P s → P (actRead p a s).1 := by intro p a s h; simpa using h
  claim : ∀ p (a : Half) s, P s → P (actClaim p a s).1 := by intro p a s h; simpa using h
  still : ∀ p (a : Option Half) s, P s → P (actStill p a s).1 := by intro p a s h; simpa using h
  halt : ∀ p (a : Unit) s, P s → P (actHalt p a s).1 := by intro p a s h; simpa using h
  haltAck : ∀ p (a : Unit) s, P s → P (actHaltAck p a s).1 := by intro p a s h; simpa using h
  resume : ∀ p (a : Unit) s, P s → P (actResume p a s).1 := by intro p a s h; simpa using h
  lampMode : ∀ p (a : Byte) s, P s → P (actLampMode p a s).1 := by intro p a s h; simpa using h
  lampWeights : ∀ p (a : Four Nat) s, P s → P (actLampWeights p a s).1 := by intro p a s h; simpa using h
  presetWrite : ∀ p (a : Byte × Four Nat) s, P s → P (actPresetWrite p a s).1 := by intro p a s h; simpa using h
  presetSelect : ∀ p (a : Byte) s, P s → P (actPresetSelect p a s).1 := by intro p a s h; simpa using h
  attitude : ∀ p (a : Int × Int) s, P s → P (actAttitude p a s).1 := by intro p a s h; simpa using h
  pose : ∀ p (a : Int × Int × Nat) s, P s → P (actPose p a s).1 := by intro p a s h; simpa using h
  journalNext : ∀ p (a : Unit) s, P s → P (actNext p a s).1 := by intro p a s h; simpa using h
  journalBulk : ∀ p (a : Unit) s, P s → P (actBulk p a s).1 := by intro p a s h; simpa using h
  journalSeek : ∀ p (a : Word32) s, P s → P (actSeek p a s).1 := by intro p a s h; simpa using h
  journalRewind : ∀ p (a : Unit) s, P s → P (actRewind p a s).1 := by intro p a s h; simpa using h
  journalBind : ∀ p (a : Unit) s, P s → P (actBinding true p a s).1 := by intro p a s h; simpa using h
  journalUnbind : ∀ p (a : Unit) s, P s → P (actBinding false p a s).1 := by intro p a s h; simpa using h
  journalClear : ∀ p (a : Unit) s, P s → P (actClearJournal p a s).1 := by intro p a s h; simpa using h
  journalMode : ∀ p (a : Byte) s, P s → P (actJournalMode p a s).1 := by intro p a s h; simpa using h
  mark : ∀ p (a : Half) s, P s → P (actMark p a s).1 := by intro p a s h; simpa using h
  note : ∀ p (a : List Byte) s, P s → P (actNote p a s).1 := by intro p a s h; simpa using h
  surfaceByteGapTimeout : ∀ s, P s → P (s.byteGap) := by intro s h; simpa using h
  surfaceAnswerSent : ∀ s, P s → P (s.answerSent) := by intro s h; simpa using h
  answerSlotAccept : ∀ b code args s, P s → P (s.acceptRequest b code args) := by intro b code args s h; simpa using h
  linkTimeout : ∀ s, P s → P (s.linkExpiry) := by intro s h; simpa using h
  wheelFilterAccept : ∀ wa wb s, P s → P (s.acceptPair wa wb) := by intro wa wb s h; simpa using h
  reelSilenceExpiry : ∀ s, P s → P (s.expireSilence) := by intro s h; simpa using h
  velocityGate : ∀ s, P s → P (s.takeGate) := by intro s h; simpa using h
  runClockTick : ∀ s, P s → P (s.tickClock) := by intro s h; simpa using h
  claimTimeout : ∀ p s, P s → P (s.timeOutClaim p) := by intro p s h; simpa using h
  sagAssert : ∀ s, P s → P (s.acceptSag) := by intro s h; simpa using h
  sagRelease : ∀ s, P s → P (s.acceptSagEnd) := by intro s h; simpa using h
  frameBoundary : ∀ s, P s → P ((s.reach s.fs.frameDue).boundary) := by intro s h; simpa using h
  strobeOn : ∀ s, P s → P (s.takeStrobe) := by intro s h; simpa using h
  exposureStart : ∀ s, P s → P (s.takeExposure) := by intro s h; simpa using h
  midpointCapture : ∀ s, P s → P (s.takeMidpoint) := by intro s h; simpa using h
  exposureEnd : ∀ s, P s → P (s.takeExposureEnd) := by intro s h; simpa using h
  lumaReport : ∀ tag luma s, P s → P (s.takeLuma tag luma) := by intro tag luma s h; simpa using h
  pwmPeriodEnd : ∀ s, P s → P (s.endPwmPeriod) := by intro s h; simpa using h
  pwmOnEnd : ∀ c s, P s → P (s.endPwmOn c) := by intro c s h; simpa using h
  dwellStart : ∀ s, P s → P (s.beginDwell) := by intro s h; simpa using h
  settleExpiry : ∀ s, P s → P (s.expireSettle) := by intro s h; simpa using h
  haltTimeout : ∀ s, P s → P (s.expireHalt) := by intro s h; simpa using h
  attributeExpiry : ∀ which s, P s → P (s.expireAttribute which) := by intro which s h; simpa using h
  lineEdge : ∀ n s, P s → P (s.activeEdge n) := by intro n s h; simpa using h
  lineInactiveChange : ∀ n s, P s → P (s.inactiveChange n) := by intro n s h; simpa using h

/-- A property kept by every move is kept by every command: requests are taken or discarded, and all but
RESET stand still while the part is held (R169, R182). -/
theorem KeptByCommands.exec {P : State → Prop} (k : KeptByCommands P) (i : Instr) (s t : State) (h : P s)
    (ht : exec i s = .next t) : P t := by
  have received : ∀ s p r, P s → P (s.setReceiver p r) := fun s _ _ h => k.ported s _ rfl rfl rfl rfl h
  cases i with
  | status p args =>
    cases ht; exact State.request_keeps k.heard k.queued k.slotted (fun a s => k.status p a s) (by simp) h
  | events p args =>
    cases ht; exact State.request_keeps k.heard k.queued k.slotted (fun a s => k.events p a s) (by simp) h
  | configGet p args =>
    cases ht; exact State.request_keeps k.heard k.queued k.slotted (fun a s => k.configGet p a s) (by simp) h
  | configSet p args =>
    cases ht; exact State.request_keeps k.heard k.queued k.slotted (fun a s => k.configSet p a s) (by simp) h
  | restart p args =>
    cases ht; exact State.request_keeps k.heard k.queued k.slotted (fun a s => k.restart p a s) (by simp) h
  | runStart p args =>
    cases ht; exact State.request_keeps k.heard k.queued k.slotted (fun a s => k.runStart p a s) (by simp) h
  | runEnd p args =>
    cases ht; exact State.request_keeps k.heard k.queued k.slotted (fun a s => k.runEnd p a s) (by simp) h
  | zero p args =>
    cases ht; exact State.request_keeps k.heard k.queued k.slotted (fun a s => k.zero p a s) (by simp) h
  | setChainage p args =>
    cases ht; exact State.request_keeps k.heard k.queued k.slotted (fun a s => k.setChainage p a s) (by simp) h
  | reelReport p args =>
    cases ht; exact State.request_keeps k.heard k.queued k.slotted (fun a s => k.reelReport p a s) (by simp) h
  | waypointPlace p args =>
    cases ht; exact State.request_keeps k.heard k.queued k.slotted (fun a s => k.waypointPlace p a s) (by simp) h
  | waypointClear p args =>
    cases ht; exact State.request_keeps k.heard k.queued k.slotted (fun a s => k.waypointClear p a s) (by simp) h
  | waypointRead p args =>
    cases ht; exact State.request_keeps k.heard k.queued k.slotted (fun a s => k.waypointRead p a s) (by simp) h
  | claim p args =>
    cases ht; exact State.request_keeps k.heard k.queued k.slotted (fun a s => k.claim p a s) (by simp) h
  | still p args =>
    cases ht; exact State.request_keeps k.heard k.queued k.slotted (fun a s => k.still p a s) (by simp) h
  | halt p args =>
    cases ht; exact State.request_keeps k.heard k.queued k.slotted (fun a s => k.halt p a s) (by simp) h
  | haltAck p args =>
    cases ht; exact State.request_keeps k.heard k.queued k.slotted (fun a s => k.haltAck p a s) (by simp) h
  | resume p args =>
    cases ht; exact State.request_keeps k.heard k.queued k.slotted (fun a s => k.resume p a s) (by simp) h
  | lampMode p args =>
    cases ht; exact State.request_keeps k.heard k.queued k.slotted (fun a s => k.lampMode p a s) (by simp) h
  | lampWeights p args =>
    cases ht; exact State.request_keeps k.heard k.queued k.slotted (fun a s => k.lampWeights p a s) (by simp) h
  | presetWrite p args =>
    cases ht; exact State.request_keeps k.heard k.queued k.slotted (fun a s => k.presetWrite p a s) (by simp) h
  | presetSelect p args =>
    cases ht; exact State.request_keeps k.heard k.queued k.slotted (fun a s => k.presetSelect p a s) (by simp) h
  | attitude p args =>
    cases ht; exact State.request_keeps k.heard k.queued k.slotted (fun a s => k.attitude p a s) (by simp) h
  | pose p args =>
    cases ht; exact State.request_keeps k.heard k.queued k.slotted (fun a s => k.pose p a s) (by simp) h
  | journalNext p args =>
    cases ht; exact State.request_keeps k.heard k.queued k.slotted (fun a s => k.journalNext p a s) (by simp) h
  | journalBulk p args =>
    cases ht; exact State.request_keeps k.heard k.queued k.slotted (fun a s => k.journalBulk p a s) (by simp) h
  | journalSeek p args =>
    cases ht; exact State.request_keeps k.heard k.queued k.slotted (fun a s => k.journalSeek p a s) (by simp) h
  | journalRewind p args =>
    cases ht; exact State.request_keeps k.heard k.queued k.slotted (fun a s => k.journalRewind p a s) (by simp) h
  | journalBind p args =>
    cases ht; exact State.request_keeps k.heard k.queued k.slotted (fun a s => k.journalBind p a s) (by simp) h
  | journalUnbind p args =>
    cases ht; exact State.request_keeps k.heard k.queued k.slotted (fun a s => k.journalUnbind p a s) (by simp) h
  | journalClear p args =>
    cases ht; exact State.request_keeps k.heard k.queued k.slotted (fun a s => k.journalClear p a s) (by simp) h
  | journalMode p args =>
    cases ht; exact State.request_keeps k.heard k.queued k.slotted (fun a s => k.journalMode p a s) (by simp) h
  | mark p args =>
    cases ht; exact State.request_keeps k.heard k.queued k.slotted (fun a s => k.mark p a s) (by simp) h
  | note p args =>
    cases ht; exact State.request_keeps k.heard k.queued k.slotted (fun a s => k.note p a s) (by simp) h
  | unknownRequest p code args =>
    cases ht
    refine State.whenRunning_keeps (fun s h => ?_) h
    exact State.deliver_keeps k.heard k.queued k.slotted (fun s h => h) (fun _ => rfl) h
  | invalidFrame p => cases ht; exact State.whenRunning_keeps (fun s => received s p .hunt) h
  | resetAssert => cases ht; exact k.resetAssert s h
  | resetRelease => cases ht; exact k.resetRelease s h
  | lrckLowPeriod => cases ht; exact State.whenRunning_keeps k.lowPeriod h
  | surfaceByteGapTimeout => cases ht; exact State.whenRunning_keeps (k.surfaceByteGapTimeout) h
  | surfaceAnswerSent => cases ht; exact State.whenRunning_keeps (k.surfaceAnswerSent) h
  | answerSlotAccept b code args => cases ht; exact State.whenRunning_keeps (k.answerSlotAccept b code args) h
  | linkTimeout => cases ht; exact State.whenRunning_keeps (k.linkTimeout) h
  | wheelFilterAccept wa wb => cases ht; exact State.whenRunning_keeps (k.wheelFilterAccept wa wb) h
  | reelSilenceExpiry => cases ht; exact State.whenRunning_keeps (k.reelSilenceExpiry) h
  | velocityGate => cases ht; exact State.whenRunning_keeps (k.velocityGate) h
  | runClockTick => cases ht; exact State.whenRunning_keeps (k.runClockTick) h
  | claimTimeout p => cases ht; exact State.whenRunning_keeps (k.claimTimeout p) h
  | sagAssert => cases ht; exact State.whenRunning_keeps (k.sagAssert) h
  | sagRelease => cases ht; exact State.whenRunning_keeps (k.sagRelease) h
  | frameBoundary => cases ht; exact State.whenRunning_keeps (k.frameBoundary) h
  | strobeOn => cases ht; exact State.whenRunning_keeps (k.strobeOn) h
  | exposureStart => cases ht; exact State.whenRunning_keeps (k.exposureStart) h
  | midpointCapture => cases ht; exact State.whenRunning_keeps (k.midpointCapture) h
  | exposureEnd => cases ht; exact State.whenRunning_keeps (k.exposureEnd) h
  | lumaReport tag luma => cases ht; exact State.whenRunning_keeps (k.lumaReport tag luma) h
  | pwmPeriodEnd => cases ht; exact State.whenRunning_keeps (k.pwmPeriodEnd) h
  | pwmOnEnd c => cases ht; exact State.whenRunning_keeps (k.pwmOnEnd c) h
  | dwellStart => cases ht; exact State.whenRunning_keeps (k.dwellStart) h
  | settleExpiry => cases ht; exact State.whenRunning_keeps (k.settleExpiry) h
  | haltTimeout => cases ht; exact State.whenRunning_keeps (k.haltTimeout) h
  | attributeExpiry which => cases ht; exact State.whenRunning_keeps (k.attributeExpiry which) h
  | lineEdge n => cases ht; exact State.whenRunning_keeps (k.lineEdge n) h
  | lineInactiveChange n => cases ht; exact State.whenRunning_keeps (k.lineInactiveChange n) h

/-- A property kept by every move of a command and by the moves below the commands is kept by every step. -/
theorem KeptByCommands.step {P : State → Prop} (k : KeptByCommands P) (w : WireStable P) {s t : State}
    (h : P s) (ht : step s = .next t) : P t :=
  step_keeps w k.exec h ht

end Sys2Proof.Machine
end

section
/-! Writing a setting (R176): what CONFIG SET's table of 10.8 lets through, and what it keeps. -/

namespace Sys2Proof.Machine

theorem rangedNat_eq_some {lo hi v : Int} {write : Nat → Settings} {c : Settings} :
    rangedNat lo hi v write = some c ↔ (lo ≤ v ∧ v ≤ hi) ∧ write v.toNat = c := by
  simp [rangedNat]

/-- A number from the lower to the upper bound of a range is within it as a natural number. -/
theorem toNat_within {lo hi : Nat} {v : Int} (h : (lo : Int) ≤ v ∧ v ≤ (hi : Int)) :
    lo ≤ v.toNat ∧ v.toNat ≤ hi := by omega

/-- A line's parameter is written within its range of 10.8 (R181). -/
theorem LineSetting.put_debounce {kind : Nat} {v : Int} {l l' : LineSetting} (put : l.put kind v = some l')
    (h : 1 ≤ l.debounce ∧ l.debounce ≤ 255) : 1 ≤ l'.debounce ∧ l'.debounce ≤ 255 := by
  unfold LineSetting.put at put
  split at put
  · obtain ⟨f, -, rfl⟩ := Option.map_eq_some_iff.mp put; exact h
  · obtain ⟨q, -, rfl⟩ := Option.map_eq_some_iff.mp put; exact h
  · split at put
    · next range => cases put; exact toNat_within range
    · cases put

theorem Settings.default_inRange : Settings.default.inRange := by
  constructor <;> decide

/-- A named parameter is written within its range, and a dependent setting is lowered with it (R100, R176). -/
theorem Settings.putNamed_inRange {code : Nat} {v : Int} {c c' : Settings} (h : c.inRange)
    (put : c.putNamed code v = some c') : c'.inRange := by
  unfold Settings.putNamed at put
  split at put
  case h_9 => obtain ⟨m, -, rfl⟩ := Option.map_eq_some_iff.mp put; exact { h with }
  case h_10 =>
    split at put
    · next range => cases put; exact { h with zeroOffset := range }
    · cases put
  case h_27 => cases put
  all_goals
    obtain ⟨range, rfl⟩ := rangedNat_eq_some.mp put
  case h_1 => exact { h with wheelScale := toNat_within range }
  case h_2 => exact { h with reelScale := toNat_within range }
  case h_3 => exact { h with windowLength := toNat_within range }
  case h_4 => exact { h with toleranceFactor := toNat_within range }
  case h_5 => exact { h with confirmCount := toNat_within range }
  case h_6 => exact { h with reelJumpLimit := toNat_within range }
  case h_7 => exact { h with reelSilenceLimit := toNat_within range }
  case h_8 => exact { h with glitchWidth := (toNat_within range).2 }
  case h_11 => exact { h with tetherAllowance := toNat_within range }
  case h_12 => exact { h with lampFloor := (toNat_within range).2 }
  case h_13 => exact { h with claimTimeout := toNat_within range }
  case h_14 =>
    exact { h with
      framePeriod := toNat_within range
      userExposure := by
        obtain ⟨low, high⟩ := h.userExposure
        simp only [Settings.putFramePeriod, readoutGuard]
        omega }
  case h_15 => exact { h with userExposure := by have := h.framePeriod; dsimp only; omega }
  case h_16 => exact { h with lumaTarget := toNat_within range }
  case h_17 => exact { h with blurLimit := toNat_within range }
  case h_18 =>
    exact { h with
      dMax := by simp only [Settings.putDMax]; omega
      dMin := by obtain ⟨low, high, -⟩ := h.dMin; simp only [Settings.putDMax]; omega
      dwellLevel := Nat.min_le_right _ _ }
  case h_19 => exact { h with dMin := by dsimp only; omega }
  case h_20 => exact { h with gMax := toNat_within range }
  case h_21 => exact { h with dwellLevel := (toNat_within range).2 }
  case h_22 => exact { h with journalInterval := (toNat_within range).2 }
  case h_23 => exact { h with channelMax := toNat_within range }
  case h_24 => exact { h with dwellTime := (toNat_within range).2 }
  case h_25 => exact { h with haltTimeout := toNat_within range }
  case h_26 => exact { h with settleTime := (toNat_within range).2 }

/-- Any parameter is written within its range (R176). -/
theorem Settings.put_inRange {code : Nat} {v : Int} {c c' : Settings} (h : c.inRange)
    (put : c.put code v = some c') : c'.inRange := by
  unfold Settings.put at put
  split at put
  · next kind n _ =>
    obtain ⟨l, written, rfl⟩ := Option.map_eq_some_iff.mp put
    refine { h with debounce := fun m => ?_ }
    by_cases same : n = m
    · subst same
      simpa using LineSetting.put_debounce written (h.debounce n)
    · simpa [same] using h.debounce m
  · exact Settings.putNamed_inRange h put

/-- What a written value does at once leaves the settings as written (R176). -/
@[simp] theorem State.actOnSetting_cfg (code : Nat) (s : State) : (s.actOnSetting code).cfg = s.cfg := by
  simp

/-- CONFIG SET refuses, or writes one parameter and lets the value act (R176). -/
theorem actConfigSet_cases (p : Port) (a : Byte × Int) (s : State) :
    (actConfigSet p a s).1 = s ∨
    ∃ cfg, s.cfg.put a.1.toNat a.2 = some cfg ∧
      (namesBudget a.1.toNat = true →
        s.ca.granted + max s.ca.commit cfg.lampFloor ≤ cfg.tetherAllowance) ∧
      (actConfigSet p a s).1 = ({ s with cfg := cfg } : State).actOnSetting a.1.toNat := by
  unfold actConfigSet
  split
  · exact .inl rfl
  · next cfg put =>
    split
    · exact .inl rfl
    · next fits =>
      refine .inr ⟨cfg, put, fun budget => ?_, rfl⟩
      simpa [budget, budgetFits] using fits

/-- The settings stay in range under every command (R176). -/
theorem settings_keptByCommands : KeptByCommands fun s => s.cfg.inRange where
  configSet p a s h := by
    rcases actConfigSet_cases p a s with same | ⟨cfg, put, -, written⟩
    · rwa [same]
    · rw [written, State.actOnSetting_cfg]
      exact Settings.put_inRange h put
  resetRelease s _ := Settings.default_inRange

end Sys2Proof.Machine
end

section
/-! The settings of 10.8 and the budget of R59 are kept by every step. -/

namespace Sys2Proof.Machine

theorem settings_wireStable : WireStable fun s => s.cfg.inRange :=
  ⟨fun _ _ _ h => h, fun _ _ h => h, fun _ _ h => h, fun _ _ h => h, fun _ _ _ _ _ _ h => h⟩

/-- Settles O58: only CONFIG SET and the release of RESET write a setting, each within its range. -/
theorem everyStepKeepsTheSettingsInRange : Obligations.EveryStepKeepsTheSettingsInRange := fun _ _ =>
  settings_keptByCommands.step settings_wireStable

/-! ### The budget (R59) -/

/-- A written parameter that does not name the budget leaves A and F as they were (R70, R176). -/
theorem Settings.put_budget {code : Nat} {v : Int} {c c' : Settings} (put : c.put code v = some c')
    (other : namesBudget code = false) :
    c'.tetherAllowance = c.tetherAllowance ∧ c'.lampFloor = c.lampFloor := by
  unfold Settings.put at put
  split at put
  · obtain ⟨l, -, rfl⟩ := Option.map_eq_some_iff.mp put
    exact ⟨rfl, rfl⟩
  · unfold Settings.putNamed at put
    split at put
    case h_9 => obtain ⟨m, -, rfl⟩ := Option.map_eq_some_iff.mp put; exact ⟨rfl, rfl⟩
    case h_10 =>
      split at put
      · cases put; exact ⟨rfl, rfl⟩
      · cases put
    case h_11 | h_12 => exact absurd other (by decide)
    case h_27 => cases put
    all_goals
      obtain ⟨-, rfl⟩ := rangedNat_eq_some.mp put
      exact ⟨rfl, rfl⟩

/-- A written value's own act keeps the budget: of what it starts, only serving touches grants (R70). -/
theorem State.actOnSetting_budget (code : Nat) {s : State} (h : s.budgetHolds) :
    (s.actOnSetting code).budgetHolds := by
  have other : ∀ t : State, t.ca = s.ca → t.cfg = s.cfg → t.budgetHolds := fun t ca cfg =>
    State.budgetHolds_of h cfg (by rw [ca]) (by rw [ca])
  unfold State.actOnSetting
  split
  case h_4 | h_5 => exact State.serve_budget s h
  case h_1 => split <;> exact other _ (by simp) (by simp)
  all_goals exact other _ (by simp) (by simp)

theorem actConfigSet_budget (p : Port) (a : Byte × Int) {s : State} (h : s.budgetHolds) :
    (actConfigSet p a s).1.budgetHolds := by
  rcases actConfigSet_cases p a s with same | ⟨cfg, put, fits, written⟩
  · rwa [same]
  · rw [written]
    refine State.actOnSetting_budget _ ?_
    cases names : namesBudget a.1.toNat with
    | true => exact fits names
    | false =>
      obtain ⟨allowance, floor⟩ := Settings.put_budget put names
      unfold State.budgetHolds at *
      simpa [allowance, floor] using h

/-- RESTART gives every grant back (R75, R184). -/
theorem actRestart_budget (p : Port) (a : Byte) {s : State} (h : s.budgetHolds) :
    (actRestart p a s).1.budgetHolds := by
  unfold actRestart
  split
  · next reseed _ =>
    unfold State.budgetHolds Arbiter.granted at *
    cases reseed <;> simp [State.restart, State.clearClaims, PerPort.all] <;> omega
  · exact h

theorem State.timeOutClaim_budget (p : Port) {s : State} (h : s.budgetHolds) :
    (s.timeOutClaim p).budgetHolds := by
  unfold State.timeOutClaim
  split
  · exact State.expireClaim_budget p _ (State.budgetHolds_of h (by simp) (by simp) (by simp))
  · exact h

/-- A sag's beginning takes the commit out of the budget (R73). -/
theorem State.acceptSag_budget {s : State} (h : s.budgetHolds) : s.acceptSag.budgetHolds := by
  unfold State.acceptSag
  split
  · unfold State.budgetHolds Arbiter.granted State.assertSag at *
    dsimp only
    split <;> simp <;> omega
  · exact h

theorem State.acceptSagEnd_budget {s : State} (h : s.budgetHolds) : s.acceptSagEnd.budgetHolds := by
  unfold State.acceptSagEnd State.releaseSag
  split
  · exact State.serve_budget _ (State.budgetHolds_of h (by simp) (by simp) (by simp))
  · exact h

/-- The commit that a boundary hands in is the allocation's, so it stays within the lamp allowance (R65,
R66, R95). -/
theorem State.boundary_budget {s : State} (h : s.budgetHolds) : s.boundary.budgetHolds := by
  have ready : (s.frameBegun.driveFrame s.previousMode (s.fs.frameNumber + 1) s.frameAllocated).budgetHolds :=
    State.budgetHolds_of h (by simp) (by simp) (by simp)
  have commit : s.frameAllocated.commit ≤ s.frameReady.lampAllowance := lampCommit_le _
  have allowance : ∀ t : State, t.ca = s.ca → t.cfg = s.cfg → t.lampAllowance = s.lampAllowance := by
    intro t ca cfg
    simp [State.lampAllowance, ca, cfg]
  rw [allowance s.frameReady (by simp) (by simp)] at commit
  have handed : ((s.frameBegun.driveFrame s.previousMode (s.fs.frameNumber + 1)
      s.frameAllocated).handInCommit s.frameAllocated.commit).budgetHolds :=
    State.handInCommit_budget _ _ ready (by rwa [allowance _ (by simp) (by simp)])
  exact State.budgetHolds_of handed (by simp [State.boundary]) (by simp [State.boundary])
    (by simp [State.boundary])

theorem State.powerOn_budget (p : Pins) : (State.powerOn p).budgetHolds := by
  show (0 + max 0 100 : Nat) ≤ 1200
  decide

theorem budget_keptByCommands : KeptByCommands fun s : State =>
    s.ca.granted + max s.ca.commit s.cfg.lampFloor ≤ s.cfg.tetherAllowance where
  configSet p a _ h := actConfigSet_budget p a h
  restart p a _ h := actRestart_budget p a h
  claim p a s h := State.takeClaim_budget p a.toNat s h
  claimTimeout p _ h := State.timeOutClaim_budget p h
  sagAssert _ h := State.acceptSag_budget h
  sagRelease _ h := State.acceptSagEnd_budget h
  frameBoundary s h := State.boundary_budget (s := s.reach s.fs.frameDue) h
  resetRelease s _ := State.powerOn_budget s.pins

theorem budget_wireStable : WireStable State.budgetHolds :=
  ⟨fun _ _ _ h => h, fun _ _ h => h, fun _ _ h => h, fun _ _ h => h, fun _ _ _ _ _ _ h => h⟩

/-- Settles O54: every command that touches a grant, the lamp commit, A or F checks the sum first. -/
theorem everyStepKeepsTheBudget : Obligations.EveryStepKeepsTheBudget := fun _ _ =>
  KeptByCommands.step (P := State.budgetHolds) budget_keptByCommands budget_wireStable

end Sys2Proof.Machine
end

section
/-! The journal's store (9.3): how many records making room evicts, what storing does to the numbers, and
that every step keeps the journal sound. -/

namespace Sys2Proof.Machine

/-! ### Making room (R148, R149) -/

@[simp] theorem usedWords_nil : usedWords [] = 0 := rfl

@[simp] theorem usedWords_append (rs qs : List Record) : usedWords (rs ++ qs) = usedWords rs + usedWords qs := by
  simp [usedWords]

@[simp] theorem usedWords_singleton (r : Record) : usedWords [r] = r.body.words := by simp [usedWords]

@[simp] theorem usedWords_cons (r : Record) (rs : List Record) :
    usedWords (r :: rs) = r.body.words + usedWords rs := by simp [usedWords]

/-- The fewest oldest records without which a length fits, all of them when none of these counts does. -/
def evictions (need : Nat) : List Record → Nat
  | [] => 0
  | r :: rs => if need + usedWords (r :: rs) ≤ storeWords then 0 else evictions need rs + 1

theorem evictions_le (need : Nat) (rs : List Record) : evictions need rs ≤ rs.length := by
  induction rs with
  | nil => simp [evictions]
  | cons r rs ih =>
    unfold evictions
    split
    · simp
    · simpa using ih

/-- Evicting fewer records leaves too little room. -/
theorem evictions_fewest (need : Nat) (rs : List Record) (j : Nat) (h : j < evictions need rs) :
    storeWords < need + usedWords (rs.drop j) := by
  induction rs generalizing j with
  | nil => simp [evictions] at h
  | cons r rs ih =>
    unfold evictions at h
    split at h
    · omega
    · next full =>
      cases j with
      | zero => simpa using full
      | succ j => simpa using ih j (by omega)

/-- What a store of 8,192 words can hold at all fits after the evictions. -/
theorem evictions_fit {need : Nat} (rs : List Record) (h : need ≤ storeWords) :
    need + usedWords (rs.drop (evictions need rs)) ≤ storeWords := by
  induction rs with
  | nil => simpa [evictions] using h
  | cons r rs ih =>
    unfold evictions
    split
    · next fits => simpa using fits
    · simpa using ih

/-- Room is made by the fewest evictions, when these make room and every record evicted may go. -/
theorem makeRoom_eq (evictable : Record → Bool) (need : Nat) (rs : List Record) :
    makeRoom evictable need rs =
      if need ≤ storeWords ∧ ∀ r ∈ rs.take (evictions need rs), evictable r = true then
        some (rs.drop (evictions need rs))
      else none := by
  induction rs with
  | nil => simp [makeRoom, evictions]
  | cons r rs ih =>
    unfold makeRoom evictions
    split
    · have small : need ≤ storeWords := by omega
      simp [small]
    · rw [ih]
      by_cases goes : evictable r = true <;> simp [goes]

/-- Room that is made holds what it was made for, and what is kept is the newest part of the store. -/
theorem makeRoom_some {evictable : Record → Bool} {need : Nat} {rs kept : List Record}
    (h : makeRoom evictable need rs = some kept) :
    need + usedWords kept ≤ storeWords ∧ ∃ k, k ≤ rs.length ∧ kept = rs.drop k := by
  rw [makeRoom_eq] at h
  split at h
  · next room =>
    cases h
    exact ⟨evictions_fit rs room.1, _, evictions_le need rs, rfl⟩
  · cases h

/-! ### Contiguous numbers (R147) -/

theorem numberedFrom_append (first : Nat) (rs : List Record) (r : Record) :
    numberedFrom first (rs ++ [r]) ↔ numberedFrom first rs ∧ r.seq = first + rs.length := by
  induction rs generalizing first with
  | nil => simp [numberedFrom]
  | cons q rs ih =>
    simp only [List.cons_append, numberedFrom, ih, List.length_cons, and_assoc]
    have : first + 1 + rs.length = first + (rs.length + 1) := by omega
    rw [this]

theorem numberedFrom_drop {first : Nat} {rs : List Record} (h : numberedFrom first rs) (k : Nat) :
    numberedFrom (first + k) (rs.drop k) := by
  induction k generalizing first rs with
  | zero => simpa using h
  | succ k ih =>
    cases rs with
    | nil => trivial
    | cons r rs =>
      have := ih h.2
      rwa [Nat.add_assoc, Nat.add_comm 1 k] at this

/-! ### Soundness of the store -/

/-- A record stored under the next number behind the newest part of the store keeps the journal sound. -/
theorem Journal.sound_stored {j : Journal} {k : Nat} {header : Header} {b : Body} (h : j.sound)
    (fits : b.words + usedWords (j.store.drop k) ≤ storeWords) (kept : k ≤ j.store.length)
    (room : j.next < exhaustedNumber) :
    ({ j with store := j.store.drop k ++ [⟨j.next, header, b⟩], next := j.next + 1 } : Journal).sound := by
  obtain ⟨stored, numbered, -, -, cursors, drops, count⟩ := h
  have base : j.next + 1 - (j.store.drop k ++ [(⟨j.next, header, b⟩ : Record)]).length = j.base + k := by
    simp [Journal.base]
    omega
  refine ⟨by simp; omega, ?_, by simpa [Nat.add_comm] using fits, room,
    fun p => (cursors p).trans (Nat.le_succ _), drops, count⟩
  show numberedFrom (j.next + 1 - _) _
  rw [base, numberedFrom_append]
  refine ⟨numberedFrom_drop numbered k, ?_⟩
  simp [Journal.base]
  omega

/-- A drop counted keeps the journal sound (R150). -/
theorem State.countDrop_sound {s : State} (h : s.jn.sound) : s.countDrop.jn.sound := by
  obtain ⟨stored, numbered, used, next, cursors, drops, count⟩ := h
  refine ⟨stored, numbered, used, next, cursors, ?_, Nat.min_le_right _ _⟩
  simp only [State.countDrop, maxDrops]
  by_cases first : s.jn.dropCount = 0
  · simp [first]
  · simp [first, drops]

theorem State.clearDrops_sound {s : State} (h : s.jn.sound) : s.clearDrops.jn.sound := by
  obtain ⟨stored, numbered, used, next, cursors, -, -⟩ := h
  exact ⟨stored, numbered, used, next, cursors, by simp [State.clearDrops], Nat.zero_le _⟩

theorem State.storeRecord_sound {s : State} {kept : List Record} {header : Header} {b : Body}
    (h : s.jn.sound) (fits : b.words + usedWords kept ≤ storeWords)
    (newest : ∃ k, k ≤ s.jn.store.length ∧ kept = s.jn.store.drop k) (room : s.jn.next < exhaustedNumber) :
    (s.storeRecord kept header b).jn.sound := by
  obtain ⟨k, short, rfl⟩ := newest
  rw [State.storeRecord_jn]
  exact Journal.sound_stored h fits short room

@[simp] theorem Journal.lostBody_words (j : Journal) (n : Nat) : (j.lostBody n).words = 8 := rfl

/-- Handing a record keeps the journal sound, stored or dropped (R147 to R151). -/
theorem State.handRecord_sound (header : Header) (b : Body) {s : State} (h : s.jn.sound) :
    (s.handRecord header b).1.jn.sound := by
  have dropped := State.countDrop_sound h
  unfold State.handRecord
  dsimp only
  split
  · exact dropped
  next room =>
  have room : s.jn.next < exhaustedNumber := Nat.lt_of_not_le room
  split
  · split
    · next kept made =>
      obtain ⟨fits, newest⟩ := makeRoom_some made
      exact State.storeRecord_sound h fits newest room
    · exact dropped
  · split
    · split
      · next kept made =>
        obtain ⟨fits, newest⟩ := makeRoom_some made
        exact State.clearDrops_sound (State.storeRecord_sound dropped fits newest room)
      · exact dropped
    · next more =>
      split
      · next kept made =>
        obtain ⟨fits, newest⟩ := makeRoom_some made
        have lost := State.storeRecord_sound (header := s.header) (b := s.jn.lostBody s.jn.dropCount) h
          (by rw [Journal.lostBody_words]; omega) newest room
        refine State.clearDrops_sound (State.storeRecord_sound lost ?_ ⟨0, by simp, by simp⟩ ?_)
        · simp
          omega
        · simp
          omega
      · exact dropped

@[simp] theorem State.journal_sound (b : Body) {s : State} (h : s.jn.sound) : (s.journal b).jn.sound :=
  State.handRecord_sound _ _ h


/-! ### Soundness through the blocks' operations -/

@[simp] theorem State.journalState_sound (causes : StateCauses) (before : Agreement) {s : State}
    (h : s.jn.sound) : (s.journalState causes before).jn.sound := by
  simp [State.journalState, h]

@[simp] theorem State.insertHaltStill_sound (moving : Bool) {s : State} (h : s.jn.sound) :
    (s.insertHaltStill moving).jn.sound := by
  unfold State.insertHaltStill
  dsimp only
  (repeat' split) <;> simp [h]

@[simp] theorem State.startHalt_sound (kind : HaltKind) (origin : HaltOrigin) {s : State} (h : s.jn.sound) :
    (s.startHalt kind origin).jn.sound := by
  simp [State.startHalt, h]

@[simp] theorem State.endHalt_sound (q : HaltSeq) (phase : HaltPhase) (requester : Option Cause) {s : State}
    (h : s.jn.sound) : (s.endHalt q phase requester).jn.sound := by
  simp [State.endHalt, h]

@[simp] theorem State.reachStanding_sound (q : HaltSeq) {s : State} (h : s.jn.sound) :
    (s.reachStanding q).jn.sound := by
  unfold State.reachStanding
  dsimp only
  split <;> simp [h]

@[simp] theorem State.startSettle_sound (q : HaltSeq) {s : State} (h : s.jn.sound) :
    (s.startSettle q).jn.sound := by
  unfold State.startSettle
  split <;> simp [h]

@[simp] theorem State.beginSettling_sound (q : HaltSeq) {s : State} (h : s.jn.sound) :
    (s.beginSettling q).jn.sound := by
  unfold State.beginSettling
  dsimp only
  split <;> simp [h]

@[simp] theorem State.haltAtGate_sound {s : State} (h : s.jn.sound) : s.haltAtGate.jn.sound := by
  unfold State.haltAtGate
  (repeat' split) <;> simp [h]

@[simp] theorem State.haltStillExposed_sound {s : State} (h : s.jn.sound) : s.haltStillExposed.jn.sound := by
  unfold State.haltStillExposed
  (repeat' split) <;> simp [h]

@[simp] theorem State.haltTimedOut_sound (q : HaltSeq) {s : State} (h : s.jn.sound) :
    (s.haltTimedOut q).jn.sound := by
  unfold State.haltTimedOut
  dsimp only
  split <;> simp [h]

@[simp] theorem State.performAction_sound (i : Fin 16) (e : Waypoint) (n : Nat) {s : State} (h : s.jn.sound) :
    (s.performAction i e n).jn.sound := by
  unfold State.performAction State.fireHalt
  (repeat' split) <;> simp [h]

@[simp] theorem State.crossSlot_sound (c : Int) (i : Fin 16) {s : State} (h : s.jn.sound) :
    (State.crossSlot c s i).jn.sound := by
  unfold State.crossSlot
  (repeat' split) <;> simp [h]

theorem foldl_crossSlot_sound (c : Int) (is : List (Fin 16)) {s : State} (h : s.jn.sound) :
    (is.foldl (State.crossSlot c) s).jn.sound := by
  induction is generalizing s with
  | nil => exact h
  | cons i is ih => exact ih (State.crossSlot_sound c i h)

@[simp] theorem State.crossWaypoints_sound {s : State} (h : s.jn.sound) : s.crossWaypoints.jn.sound :=
  foldl_crossSlot_sound _ _ h

@[simp] theorem State.closeWindow_sound {s : State} (h : s.jn.sound) : s.closeWindow.jn.sound := by
  unfold State.closeWindow
  dsimp only
  split <;> simp [h]

@[simp] theorem State.testWindow_sound {s : State} (h : s.jn.sound) : s.testWindow.jn.sound := by
  unfold State.testWindow
  dsimp only
  split <;> simp [h]

@[simp] theorem State.advance_sound (mm : Int) {s : State} (h : s.jn.sound) : (s.advance mm).jn.sound := by
  unfold State.advance
  dsimp only
  split <;> simp [h]

@[simp] theorem State.wheelIncrement_sound (mm : Int) {s : State} (h : s.jn.sound) :
    (s.wheelIncrement mm).jn.sound := by
  unfold State.wheelIncrement
  dsimp only
  split <;> simp [h]

@[simp] theorem State.cableIncrement_sound (mm : Int) {s : State} (h : s.jn.sound) :
    (s.cableIncrement mm).jn.sound := by
  unfold State.cableIncrement
  dsimp only
  split <;> simp [h]

@[simp] theorem State.acceptPair_sound (wa wb : Bool) {s : State} (h : s.jn.sound) :
    (s.acceptPair wa wb).jn.sound := by
  unfold State.acceptPair State.wheelStep State.illegalTransition
  dsimp only
  (repeat' split) <;> simp [h]

@[simp] theorem State.loseCable_sound {s : State} (h : s.jn.sound) : s.loseCable.jn.sound := by
  simp [State.loseCable, h]

@[simp] theorem State.takeReel_sound (count : Word32) {s : State} (h : s.jn.sound) :
    (s.takeReel count).jn.sound := by
  unfold State.takeReel State.applyReel State.findCable
  dsimp only
  (repeat' split) <;> simp [h]

@[simp] theorem State.rereference_sound (v : Int) (requester : Requester) {s : State} (h : s.jn.sound) :
    (s.rereference v requester).jn.sound := by
  simp [State.rereference, h]

@[simp] theorem State.startRun_sound (offset : Int) (direction : Direction) (label : List Byte) {s : State}
    (h : s.jn.sound) : (s.startRun offset direction label).jn.sound := by
  unfold State.startRun
  dsimp only
  refine State.journal_sound _ ?_
  simp only [State.reopenWindow_frame]
  refine State.rereference_sound _ _ ?_
  split
  · simp [State.closeRun, h]
  · exact h

@[simp] theorem State.endExposure_sound (f : FrameRecord) {s : State} (h : s.jn.sound) :
    (s.endExposure f).jn.sound := by
  have emitted : ∀ t : State, t.jn.sound → (t.emitFrame f).jn.sound := by
    intro t ht
    unfold State.emitFrame
    split
    · exact ht
    · dsimp only
      split
      · exact State.handRecord_sound _ _ ht
      · exact ht
  unfold State.endExposure
  dsimp only
  (repeat' split) <;> simp [h, emitted]

@[simp] theorem State.restart_sound (reseed : Bool) {s : State} (h : s.jn.sound) :
    (s.restart reseed).jn.sound := by
  unfold State.restart State.reseed
  dsimp only
  (repeat' split) <;> simp [h]

/-! ### Cursors, CLEAR and MODE (R152 to R157) -/

/-- A cursor moved to a number that is at most N keeps the journal sound (R153). -/
theorem State.setCursor_sound (p : Port) {n : Nat} {s : State} (h : s.jn.sound) (low : n ≤ s.jn.next) :
    (s.setCursor p n).jn.sound := by
  obtain ⟨stored, numbered, used, next, cursors, drops⟩ := h
  refine ⟨stored, numbered, used, next, fun q => ?_, drops⟩
  show (s.jn.cursors.set p n).get q ≤ s.jn.next
  rw [PerPort.get_set]
  split
  · exact low
  · exact cursors q

theorem Journal.base_le (j : Journal) : j.base ≤ j.next := Nat.sub_le _ _

theorem State.answerGap_sound (p : Port) (lost : Nat) {s : State} (h : s.jn.sound) :
    (s.answerGap p lost).1.jn.sound := State.setCursor_sound p h s.jn.base_le

theorem bulkTake_prefix (count room : Nat) (rs : List Record) : bulkTake count room rs <+: rs := by
  induction rs generalizing count room with
  | nil => cases count <;> exact List.prefix_rfl
  | cons r rs ih =>
    cases count with
    | zero => exact List.nil_prefix
    | succ count =>
      unfold bulkTake
      split
      · exact (List.prefix_cons_inj r).mpr (ih _ _)
      · exact List.nil_prefix

/-- A read that finds records finds those between the cursor and N (R154). -/
theorem Journal.readCase_records {p : Port} {j : Journal} {rs : List Record} (h : j.sound)
    (found : j.readCase p = .records rs) : j.cursors.get p + rs.length ≤ j.next := by
  have stored : j.store.length < j.next := h.1
  unfold Journal.readCase at found
  dsimp only at found
  split at found
  · cases found
  · split at found
    · cases found
    · next inside =>
      cases found
      have last := h.2.2.2.2.1 p
      simp only [Journal.recordsFrom, Journal.base, List.length_drop] at *
      omega

theorem actNext_sound (p : Port) (u : Unit) {s : State} (h : s.jn.sound) : (actNext p u s).1.jn.sound := by
  unfold actNext
  split
  · exact h
  · exact h
  · exact State.answerGap_sound p _ h
  · next r rs found =>
    have := Journal.readCase_records h found
    exact State.setCursor_sound p h (by simp at this; omega)

theorem actBulk_sound (p : Port) (u : Unit) {s : State} (h : s.jn.sound) : (actBulk p u s).1.jn.sound := by
  unfold actBulk
  split
  · exact h
  · exact h
  · exact State.answerGap_sound p _ h
  · next r rs found =>
    have inside := Journal.readCase_records h found
    have taken := (bulkTake_prefix bulkRecords bulkBytes (r :: rs)).length_le
    exact State.setCursor_sound p h (by omega)

theorem actSeek_sound (p : Port) (n : Word32) {s : State} (h : s.jn.sound) : (actSeek p n s).1.jn.sound := by
  unfold actSeek
  split
  · next range => exact State.setCursor_sound p h range.2
  · exact h

theorem State.clearJournal_sound {s : State} (h : s.jn.sound) : s.clearJournal.jn.sound := by
  obtain ⟨stored, -, -, next, -, drops⟩ := h
  exact ⟨by simp [State.clearJournal]; omega, trivial, Nat.zero_le _, next,
    fun p => by simp [State.clearJournal], drops⟩

theorem actJournalMode_sound (p : Port) (mode : Byte) {s : State} (h : s.jn.sound) :
    (actJournalMode p mode s).1.jn.sound := by
  unfold actJournalMode
  split <;> exact h

theorem State.actOnSetting_sound (code : Nat) {s : State} (h : s.jn.sound) :
    (s.actOnSetting code).jn.sound := by
  unfold State.actOnSetting
  (repeat' split) <;> simp [h]

theorem actConfigSet_sound (p : Port) (a : Byte × Int) {s : State} (h : s.jn.sound) :
    (actConfigSet p a s).1.jn.sound := by
  rcases actConfigSet_cases p a s with same | ⟨cfg, -, -, written⟩
  · rwa [same]
  · rw [written]
    exact State.actOnSetting_sound _ h

theorem Journal.powerOn_sound : Journal.powerOn.sound := by
  refine ⟨by decide, trivial, by decide, by decide, fun p => ?_, by decide, by decide⟩
  cases p <;> decide

theorem actRunStart_sound (p : Port) (a : Int × Byte × List Byte) {s : State} (h : s.jn.sound) :
    (actRunStart p a s).1.jn.sound := by
  unfold actRunStart
  split <;> simp [h]

theorem actRunEnd_sound (p : Port) (u : Unit) {s : State} (h : s.jn.sound) : (actRunEnd p u s).1.jn.sound := by
  unfold actRunEnd
  split
  · exact h
  · exact State.journal_sound _ h

theorem actSetChainage_sound (p : Port) (a : Int × Half) {s : State} (h : s.jn.sound) :
    (actSetChainage p a s).1.jn.sound := by
  unfold actSetChainage
  split <;> simp [h]

theorem actHalt_sound (p : Port) (u : Unit) {s : State} (h : s.jn.sound) : (actHalt p u s).1.jn.sound := by
  unfold actHalt
  split <;> simp [h]

theorem actHaltAck_sound (p : Port) (u : Unit) {s : State} (h : s.jn.sound) :
    (actHaltAck p u s).1.jn.sound := by
  unfold actHaltAck
  (repeat' split) <;> simp [h]

theorem actResume_sound (p : Port) (u : Unit) {s : State} (h : s.jn.sound) : (actResume p u s).1.jn.sound := by
  unfold actResume
  (repeat' split) <;> simp [h]

theorem actRestart_sound (p : Port) (choice : Byte) {s : State} (h : s.jn.sound) :
    (actRestart p choice s).1.jn.sound := by
  unfold actRestart
  split <;> simp [h]

theorem State.expireSilence_sound {s : State} (h : s.jn.sound) : s.expireSilence.jn.sound := by
  unfold State.expireSilence
  split <;> simp [h]

theorem State.expireSettle_sound {s : State} (h : s.jn.sound) : s.expireSettle.jn.sound := by
  unfold State.expireSettle
  (repeat' split) <;> simp [h]

theorem State.expireHalt_sound {s : State} (h : s.jn.sound) : s.expireHalt.jn.sound := by
  unfold State.expireHalt
  (repeat' split) <;> simp [h]

theorem State.acceptSag_sound {s : State} (h : s.jn.sound) : s.acceptSag.jn.sound := by
  unfold State.acceptSag State.assertSag
  dsimp only
  (repeat' split) <;> simp [h]

theorem State.acceptSagEnd_sound {s : State} (h : s.jn.sound) : s.acceptSagEnd.jn.sound := by
  unfold State.acceptSagEnd State.releaseSag
  split <;> simp [h]

theorem State.takeExposureEnd_sound {s : State} (h : s.jn.sound) : s.takeExposureEnd.jn.sound := by
  unfold State.takeExposureEnd
  (repeat' split) <;> simp [h]

theorem State.activeEdge_sound (n : Fin 4) {s : State} (h : s.jn.sound) : (s.activeEdge n).jn.sound := by
  unfold State.activeEdge State.lineFunction State.lineStill State.lineResume
  (repeat' split) <;> simp [h]

theorem journal_keptByCommands : KeptByCommands fun s => s.jn.sound where
  configSet p a _ h := actConfigSet_sound p a h
  restart p a _ h := actRestart_sound p a h
  runStart p a _ h := actRunStart_sound p a h
  runEnd p a _ h := actRunEnd_sound p a h
  zero _ v _ h := State.rereference_sound v .zero h
  setChainage p a _ h := actSetChainage_sound p a h
  reelReport _ count _ h := State.takeReel_sound count h
  halt p a _ h := actHalt_sound p a h
  haltAck p a _ h := actHaltAck_sound p a h
  resume p a _ h := actResume_sound p a h
  journalNext p a _ h := actNext_sound p a h
  journalBulk p a _ h := actBulk_sound p a h
  journalSeek p a _ h := actSeek_sound p a h
  journalRewind p _ s h := State.setCursor_sound p h s.jn.base_le
  journalBind _ _ _ h := h
  journalUnbind _ _ _ h := h
  journalClear _ _ _ h := State.clearJournal_sound h
  journalMode p a _ h := actJournalMode_sound p a h
  mark _ _ _ h := State.handRecord_sound _ _ h
  note _ _ _ h := State.handRecord_sound _ _ h
  wheelFilterAccept wa wb _ h := State.acceptPair_sound wa wb h
  reelSilenceExpiry _ h := State.expireSilence_sound h
  velocityGate s h := State.haltAtGate_sound (by simpa using h)
  sagAssert _ h := State.acceptSag_sound h
  sagRelease _ h := State.acceptSagEnd_sound h
  exposureEnd _ h := State.takeExposureEnd_sound h
  settleExpiry _ h := State.expireSettle_sound h
  haltTimeout _ h := State.expireHalt_sound h
  lineEdge n _ h := State.activeEdge_sound n h
  resetRelease _ _ := Journal.powerOn_sound

theorem journal_wireStable : WireStable fun s => s.jn.sound :=
  ⟨fun _ _ _ h => h, fun _ _ h => h, fun _ _ h => h, fun _ _ h => h, fun _ _ _ _ _ _ h => h⟩

/-- Settles O56: records are handed behind the newest part of the store under the next number, and cursors
move to numbers that are at most N. -/
theorem everyStepKeepsTheJournalSound : Obligations.EveryStepKeepsTheJournalSound := fun _ _ =>
  journal_keptByCommands.step journal_wireStable

end Sys2Proof.Machine
end

section
/-! The still queue and the halt sequence's timers (chapter 7) under every operation. -/

namespace Sys2Proof.Machine

/-- R119 with 7.2: at most four stills wait, and the timers of a sequence stand as its state asks. -/
def State.haltsHold (s : State) : Prop := s.sq.length ≤ 4 ∧ ∀ q, s.hc.seq = some q → q.timersHold

theorem State.haltsHold_iff (s : State) : s.haltsHold ↔ s.sq.length ≤ 4 ∧ s.hc.sound := Iff.rfl

/-- The two blocks alone decide it. -/
theorem State.haltsHold_of {s t : State} (h : s.haltsHold) (sq : t.sq = s.sq) (seq : t.hc.seq = s.hc.seq) :
    t.haltsHold := by
  unfold State.haltsHold
  rwa [sq, seq]

theorem State.journal_halts (b : Body) {s : State} (h : s.haltsHold) : (s.journal b).haltsHold :=
  State.haltsHold_of h (by simp) (by simp)

/-! ### The still queue (R119 to R122) -/

theorem State.joinStill_halts (e : StillEntry) {s : State} (h : s.haltsHold) (room : s.sq.length < stillPlaces) :
    (s.joinStill e).haltsHold :=
  ⟨by unfold stillPlaces at room; simp [State.joinStill]; omega, h.2⟩

/-- A halt still at the head of a full queue costs the newest entry, so four places are enough (R122). -/
theorem State.insertHaltStill_halts (moving : Bool) {s : State} (h : s.haltsHold) :
    (s.insertHaltStill moving).haltsHold := by
  unfold State.insertHaltStill
  split
  · next room => exact ⟨room, h.2⟩
  · have shifted : ({ s with sq := haltStillEntry moving :: s.sq.dropLast } : State).haltsHold := by
      refine ⟨?_, h.2⟩
      have := h.1
      simp
      omega
    dsimp only
    split
    · exact State.journal_halts _ shifted
    · exact shifted

/-! ### The sequence (7.2) -/

/-- A sequence written whole makes good whatever stood there before. -/
theorem State.setSeq_some_halts {q : HaltSeq} {s : State} (h : s.sq.length ≤ 4) (timers : q.timersHold) :
    (s.setSeq (some q)).haltsHold :=
  ⟨by simpa using h, by simpa using timers⟩

theorem State.setSeq_none_halts {s : State} (h : s.sq.length ≤ 4) : (s.setSeq none).haltsHold :=
  ⟨by simpa using h, by simp⟩

theorem State.startHalt_halts (kind : HaltKind) (origin : HaltOrigin) {s : State} (h : s.haltsHold) :
    (s.startHalt kind origin).haltsHold :=
  State.journal_halts _ (State.setSeq_some_halts h.1 (by simp [HaltSeq.timersHold]))

theorem State.endHalt_halts (q : HaltSeq) (phase : HaltPhase) (requester : Option Cause) {s : State}
    (h : s.haltsHold) : (s.endHalt q phase requester).haltsHold :=
  State.journal_halts _ (State.setSeq_none_halts h.1)

theorem State.reachStanding_halts {q : HaltSeq} {s : State} (h : s.sq.length ≤ 4) (sure : q.unconfirmed = false) :
    (s.reachStanding q).haltsHold := by
  unfold State.reachStanding
  dsimp only
  cases kind : q.kind with
  | halt => exact State.journal_halts _ (State.setSeq_some_halts h (by simp [HaltSeq.timersHold, sure]))
  | haltStill =>
    exact State.insertHaltStill_halts _
      (State.journal_halts _ (State.setSeq_some_halts h (by simp [HaltSeq.timersHold, sure])))

/-- What SETTLING asks of a sequence, its settle timer apart. -/
def HaltSeq.settles (q : HaltSeq) : Prop :=
  q.state = .settling ∧ q.haltDue ≠ none ∧ q.unconfirmed = false ∧ q.stillMark = .none

theorem HaltSeq.timersHold_settling {q : HaltSeq} (h : q.settles) {timer : SettleTimer} (runs : timer ≠ .stopped) :
    ({ q with settle := timer } : HaltSeq).timersHold := by
  obtain ⟨state, due, sure, mark⟩ := h
  simp [HaltSeq.timersHold, state, due, sure, mark, runs]

theorem HaltSeq.settles_of_timersHold {q : HaltSeq} (h : q.timersHold) (state : q.state = .settling) :
    q.settles := by
  obtain ⟨due, -, sure, mark⟩ := h
  simp only [state] at due sure mark
  refine ⟨state, by simpa using due, by simpa using sure, by simpa using mark⟩

/-- ASKED keeps what SETTLING will ask (R126). -/
theorem HaltSeq.settles_of_asked {q : HaltSeq} (h : q.timersHold) (state : q.state = .asked) :
    ({ q with state := .settling } : HaltSeq).settles := by
  obtain ⟨due, -, sure, mark⟩ := h
  simp only [state] at due sure mark
  refine ⟨rfl, by simpa using due, by simpa using sure, by simpa using mark⟩

theorem State.startSettle_halts {q : HaltSeq} {s : State} (h : s.sq.length ≤ 4) (settles : q.settles) :
    (s.startSettle q).haltsHold := by
  unfold State.startSettle
  split
  · exact State.reachStanding_halts h settles.2.2.1
  · exact State.setSeq_some_halts h (HaltSeq.timersHold_settling settles (by simp))

theorem State.beginSettling_halts {q : HaltSeq} {s : State} (h : s.sq.length ≤ 4)
    (settles : ({ q with state := .settling } : HaltSeq).settles) : (s.beginSettling q).haltsHold := by
  unfold State.beginSettling
  dsimp only
  split
  · exact State.startSettle_halts h settles
  · exact State.setSeq_some_halts h (HaltSeq.timersHold_settling settles (by simp))

theorem State.haltAtGate_halts {s : State} (h : s.haltsHold) : s.haltAtGate.haltsHold := by
  unfold State.haltAtGate
  split
  · exact h
  next q seq =>
  have timers := h.2 q seq
  split
  · exact h
  · next state =>
    have settles := HaltSeq.settles_of_timersHold timers state
    split
    · exact State.setSeq_some_halts h.1 (HaltSeq.timersHold_settling settles (by simp))
    · split
      · exact h
      · exact State.startSettle_halts h.1 settles
  · split
    · exact State.journal_halts _ (State.setSeq_some_halts h.1 timers)
    · exact h

theorem State.haltStillTaken_halts {s : State} (h : s.haltsHold) : s.haltStillTaken.haltsHold := by
  unfold State.haltStillTaken
  split
  · next q seq =>
    split
    · next mark =>
      obtain ⟨due, settle, sure, still⟩ := h.2 q seq
      exact State.setSeq_some_halts h.1 ⟨due, settle, sure, fun _ => still (by simp [mark])⟩
    · exact h
  · exact h

theorem State.haltStillExposed_halts {s : State} (h : s.haltsHold) : s.haltStillExposed.haltsHold := by
  unfold State.haltStillExposed
  (repeat' split) <;> first | exact h | exact State.endHalt_halts _ _ _ h

/-- The halt timer runs in ASKED and SETTLING, where no still of the sequence waits yet (R128, R129). -/
theorem State.haltTimedOut_halts {q : HaltSeq} {s : State} (h : s.haltsHold) (timers : q.timersHold)
    (runs : q.haltDue ≠ none) : (s.haltTimedOut q).haltsHold := by
  have mark : q.stillMark = .none := by
    by_contra other
    exact runs (timers.1.mp (timers.2.2.2 other).1)
  have timed := State.journal_halts (q.record .timeout none) h
  unfold State.haltTimedOut
  dsimp only
  cases kind : q.kind with
  | halt => exact State.setSeq_some_halts timed.1 (by simp [HaltSeq.timersHold, mark])
  | haltStill => exact State.setSeq_none_halts (State.insertHaltStill_halts _ timed).1

/-! ### Waypoints and increments -/

theorem State.performAction_halts (i : Fin 16) (e : Waypoint) (n : Nat) {s : State} (h : s.haltsHold) :
    (s.performAction i e n).haltsHold := by
  have fired : ∀ kind, (s.fireHalt i e n kind).haltsHold := by
    intro kind
    unfold State.fireHalt
    split
    · exact State.startHalt_halts _ _ h
    · split
      · exact State.journal_halts _ h
      · split
        · next room => exact State.journal_halts _ (State.joinStill_halts _ h room)
        · exact State.journal_halts _ h
  unfold State.performAction
  split
  · exact State.journal_halts _ h
  · split
    · next room => exact State.joinStill_halts _ h room
    · exact State.journal_halts _ h
  · exact fired .halt
  · exact fired .haltStill
  · exact State.haltsHold_of h rfl rfl

theorem State.crossWaypoints_halts {s : State} (h : s.haltsHold) : s.crossWaypoints.haltsHold := by
  have crossed : ∀ c (s : State) i, s.haltsHold → (State.crossSlot c s i).haltsHold := by
    intro c s i h
    unfold State.crossSlot
    split
    · split
      · exact State.performAction_halts _ _ _ (State.haltsHold_of h rfl rfl)
      · exact State.haltsHold_of h rfl rfl
    · exact h
  unfold State.crossWaypoints
  generalize slotNumbers = is
  generalize s.cu.chainage = c
  induction is generalizing s with
  | nil => exact h
  | cons i is ih => exact ih (crossed c s i h)

theorem State.testWindow_halts {s : State} (h : s.haltsHold) : s.testWindow.haltsHold :=
  State.haltsHold_of h (by simp) (by simp)

theorem State.advance_halts (mm : Int) {s : State} (h : s.haltsHold) : (s.advance mm).haltsHold := by
  unfold State.advance
  dsimp only
  split
  · exact State.crossWaypoints_halts (State.haltsHold_of h rfl rfl)
  · exact State.haltsHold_of h rfl rfl

theorem State.wheelIncrement_halts (mm : Int) {s : State} (h : s.haltsHold) :
    (s.wheelIncrement mm).haltsHold := by
  refine State.testWindow_halts ?_
  split
  · exact State.advance_halts _ (State.haltsHold_of h rfl rfl)
  · exact State.haltsHold_of h rfl rfl

theorem State.cableIncrement_halts (mm : Int) {s : State} (h : s.haltsHold) :
    (s.cableIncrement mm).haltsHold := by
  refine State.testWindow_halts ?_
  split
  · exact State.advance_halts _ (State.haltsHold_of h rfl rfl)
  · exact State.haltsHold_of h rfl rfl

theorem State.acceptPair_halts (wa wb : Bool) {s : State} (h : s.haltsHold) :
    (s.acceptPair wa wb).haltsHold := by
  have stepped : ∀ forward (s : State), s.haltsHold → (s.wheelStep forward).haltsHold := by
    intro forward s h
    unfold State.wheelStep
    dsimp only
    generalize s.cu.wheelResidual + _ = sum
    split
    · exact State.haltsHold_of h rfl rfl
    · exact State.wheelIncrement_halts _ (State.haltsHold_of h rfl rfl)
  unfold State.acceptPair
  dsimp only
  split
  · exact State.haltsHold_of h rfl rfl
  · exact stepped _ _ (State.haltsHold_of h rfl rfl)
  · exact State.haltsHold_of h (by simp) (by simp)

theorem State.takeReel_halts (count : Word32) {s : State} (h : s.haltsHold) : (s.takeReel count).haltsHold := by
  have applied : ∀ s : State, s.haltsHold → (s.applyReel count).haltsHold := by
    intro s h
    unfold State.applyReel
    split
    · exact State.haltsHold_of h rfl rfl
    · dsimp only
      split
      · exact State.haltsHold_of h (by simp) (by simp)
      · split
        · exact State.haltsHold_of h rfl rfl
        · exact State.cableIncrement_halts _ (State.haltsHold_of h rfl rfl)
  refine applied _ ?_
  split
  · exact State.haltsHold_of h (by simp) (by simp)
  · exact State.haltsHold_of h rfl rfl

/-! ### Acts and events -/

theorem actStill_halts (p : Port) (code : Option Half) {s : State} (h : s.haltsHold) :
    (actStill p code s).1.haltsHold := by
  unfold actStill
  split
  · next room => exact State.joinStill_halts _ h room
  · exact h

theorem actHalt_halts (p : Port) (u : Unit) {s : State} (h : s.haltsHold) : (actHalt p u s).1.haltsHold := by
  unfold actHalt
  split
  · exact State.startHalt_halts _ _ h
  · exact h

theorem actHaltAck_halts (p : Port) (u : Unit) {s : State} (h : s.haltsHold) :
    (actHaltAck p u s).1.haltsHold := by
  unfold actHaltAck
  split
  · next q seq =>
    split
    · next state =>
      exact State.beginSettling_halts (by simpa using h.1) (HaltSeq.settles_of_asked (h.2 q seq) state)
    · exact h
  · exact h

theorem actResume_halts (p : Port) (u : Unit) {s : State} (h : s.haltsHold) : (actResume p u s).1.haltsHold := by
  unfold actResume
  (repeat' split) <;> first | exact h | exact State.endHalt_halts _ _ _ h


theorem State.activeEdge_halts (n : Fin 4) {s : State} (h : s.haltsHold) : (s.activeEdge n).haltsHold := by
  have accepted : (s.acceptLine n (s.cfg.lines.get n).polarity.activeLevel).haltsHold := State.haltsHold_of h rfl rfl
  unfold State.activeEdge State.lineFunction State.lineStill State.lineResume
  split
  · exact accepted
  · exact State.haltsHold_of accepted (by simp) (by simp)
  · split
    · next room => exact State.joinStill_halts _ accepted room
    · exact State.journal_halts _ accepted
  · exact State.journal_halts _ accepted
  · split
    · exact State.endHalt_halts _ _ _ accepted
    · exact accepted

theorem State.expireSettle_halts {s : State} (h : s.haltsHold) : s.expireSettle.haltsHold := by
  unfold State.expireSettle
  split
  · next q seq =>
    split
    · next runs =>
      have settling : q.state = .settling := by
        by_contra other
        exact absurd ((h.2 q seq).2.1.mpr other) (by simp [runs])
      exact State.reachStanding_halts h.1 (HaltSeq.settles_of_timersHold (h.2 q seq) settling).2.2.1
    · exact h
  · exact h

theorem State.expireHalt_halts {s : State} (h : s.haltsHold) : s.expireHalt.haltsHold := by
  unfold State.expireHalt
  split
  · next q seq =>
    split
    · next due runs => exact State.haltTimedOut_halts (s := s.reach due) h (h.2 q seq) (by simp [runs])
    · exact h
  · exact h

theorem State.takeStill_halts {s : State} (h : s.haltsHold) : s.takeStill.haltsHold := by
  unfold State.takeStill
  split
  · exact h
  · next e rest queue =>
    have left : ({ s with sq := rest } : State).haltsHold :=
      ⟨by have := h.1; rw [queue] at this; simp at this; show rest.length ≤ 4; omega, h.2⟩
    dsimp only
    split
    · exact State.haltStillTaken_halts left
    · exact left

theorem State.boundary_halts {s : State} (h : s.haltsHold) : s.boundary.haltsHold := by
  have ready : s.frameReady.haltsHold :=
    State.haltsHold_of (State.takeStill_halts (s := s.latchFrame) h) rfl rfl
  have begun : s.frameBegun.haltsHold := by
    unfold State.frameBegun
    dsimp only
    split
    · exact State.haltsHold_of ready (by simp) (by simp)
    · exact State.haltsHold_of ready rfl rfl
  exact State.haltsHold_of begun (by simp [State.boundary]) (by simp [State.boundary])

theorem State.takeExposureEnd_halts {s : State} (h : s.haltsHold) : s.takeExposureEnd.haltsHold := by
  have ended : ∀ f (s : State), s.haltsHold → (s.endExposure f).haltsHold := by
    intro f s h
    unfold State.endExposure
    dsimp only
    (repeat' split) <;>
      first
      | exact State.haltStillExposed_halts (State.haltsHold_of h (by simp) (by simp))
      | exact State.haltsHold_of h (by simp) (by simp)
  unfold State.takeExposureEnd
  (repeat' split) <;> first | exact h | exact ended _ _ h

theorem actRestart_halts (p : Port) (choice : Byte) {s : State} (h : s.haltsHold) :
    (actRestart p choice s).1.haltsHold := by
  unfold actRestart
  split
  · exact ⟨by simp [State.restart, State.dropHaltAndStills], by simp [State.restart, State.dropHaltAndStills]⟩
  · exact h

theorem State.linkExpiry_halts {s : State} (h : s.haltsHold) : s.linkExpiry.haltsHold := by
  unfold State.linkExpiry
  split
  · exact State.haltsHold_of h (by simp) (by simp [State.loseLink])
  · exact h

theorem halts_keptByCommands : KeptByCommands fun s =>
    s.sq.length ≤ 4 ∧ ∀ q, s.hc.seq = some q → q.timersHold where
  configSet p a _ h := State.haltsHold_of h (by simp) (by simp)
  restart p a _ h := actRestart_halts p a h
  reelReport _ count _ h := State.takeReel_halts count h
  still p a _ h := actStill_halts p a h
  halt p a _ h := actHalt_halts p a h
  haltAck p a _ h := actHaltAck_halts p a h
  resume p a _ h := actResume_halts p a h
  linkTimeout _ h := State.linkExpiry_halts h
  wheelFilterAccept wa wb _ h := State.acceptPair_halts wa wb h
  velocityGate s h := State.haltAtGate_halts (State.haltsHold_of h (by simp) (by simp))
  frameBoundary s h := State.boundary_halts (s := s.reach s.fs.frameDue) h
  exposureEnd _ h := State.takeExposureEnd_halts h
  settleExpiry _ h := State.expireSettle_halts h
  haltTimeout _ h := State.expireHalt_halts h
  lineEdge n _ h := State.activeEdge_halts n h
  resetRelease _ _ := ⟨Nat.zero_le _, fun _ h => nomatch h⟩

theorem halts_wireStable : WireStable State.haltsHold :=
  ⟨fun _ _ _ h => h, fun _ _ h => h, fun _ _ h => h, fun _ _ h => h, fun _ _ _ _ _ _ h => h⟩

end Sys2Proof.Machine
end

section
/-! The pending queue (R60, R61), the in-flight ring (R77, R78, R85) and the output queue (R164) under every
command. -/

namespace Sys2Proof.Machine

/-! ### The pending queue -/

/-- What R60 and R61 ask of one port's record, for a pending queue. -/
def Claim.placed (c : Claim) (p : Port) (queue : List Port) : Prop :=
  match c.state with
  | .settled => p ∉ queue ∧ c.requested = c.granted
  | .pending _ => p ∈ queue ∧ c.granted < c.requested

/-- R61 for records and a queue. -/
def placed (claims : PerPort Claim) (queue : List Port) : Prop :=
  queue.Nodup ∧ ∀ p, (claims.get p).placed p queue

theorem Arbiter.queueHolds_iff (a : Arbiter) : a.queueHolds ↔ placed a.claims a.queue := Iff.rfl

theorem Arbiter.queueHolds_of {a b : Arbiter} (h : a.queueHolds) (claims : b.claims = a.claims)
    (queue : b.queue = a.queue) : b.queueHolds := by
  rw [Arbiter.queueHolds_iff] at *
  rwa [claims, queue]

/-- A record that does not change keeps its place in a queue that keeps or misses its port as before. -/
theorem Claim.placed_congr {c : Claim} {p : Port} {queue queue' : List Port} (h : c.placed p queue)
    (same : p ∈ queue' ↔ p ∈ queue) : c.placed p queue' := by
  unfold Claim.placed at *
  split <;> simp_all

/-- One record settles at x and leaves the queue, from any position (R61). -/
theorem placed_settled {claims : PerPort Claim} {queue : List Port} (h : placed claims queue) (p : Port) (x : Nat) :
    placed (claims.set p ⟨x, x, .settled⟩) (queue.filter (· ≠ p)) := by
  refine ⟨h.1.filter _, fun q => ?_⟩
  by_cases same : p = q
  · subst same
    simp [Claim.placed]
  · rw [PerPort.get_set_other _ _ same]
    refine Claim.placed_congr (h.2 q) ?_
    simp [Ne.symm same]

/-- A deferred record joins the tail when it was SETTLED, and keeps its place when it was PENDING (R64). -/
theorem placed_deferred {claims : PerPort Claim} {queue : List Port} (h : placed claims queue) {p : Port} {x due : Nat}
    (above : (claims.get p).granted < x) :
    placed (claims.set p ⟨(claims.get p).granted, x, .pending due⟩)
      (if (claims.get p).state = .settled then queue ++ [p] else queue) := by
  have own := h.2 p
  unfold Claim.placed at own
  refine ⟨?_, fun q => ?_⟩
  · split
    · next settled =>
      simp only [settled] at own
      have apart : ∀ a ∈ queue, a ≠ p := fun a ha same => own.1 (same ▸ ha)
      simpa [List.nodup_append, h.1] using apart
    · exact h.1
  · by_cases same : p = q
    · subst same
      cases state : (claims.get p).state <;> simp_all [Claim.placed]
    · rw [PerPort.get_set_other _ _ same]
      refine Claim.placed_congr (h.2 q) ?_
      split <;> simp [Ne.symm same]

/-- Serving grants the head its whole need and takes it out (R67). -/
theorem State.serveQueue_placed (queue : List Port) (s : State) (h : placed s.ca.claims queue) :
    placed (State.serveQueue queue s).ca.claims (State.serveQueue queue s).ca.queue := by
  induction queue generalizing s with
  | nil => exact h
  | cons p rest ih =>
    unfold State.serveQueue
    split
    · apply ih
      have left : (p :: rest).filter (· ≠ p) = rest := by
        have fresh : p ∉ rest := (List.nodup_cons.mp h.1).1
        simp only [ne_eq, decide_not, List.filter_cons, decide_true, Bool.not_true, Bool.false_eq_true, if_false]
        refine List.filter_eq_self.mpr fun q hq => ?_
        simpa using fun same : q = p => fresh (same ▸ hq)
      have := placed_settled h p (s.ca.claims.get p).requested
      rwa [left] at this
    · exact h

theorem State.serve_placed {s : State} (h : s.ca.queueHolds) : s.serve.ca.queueHolds := by
  unfold State.serve
  split
  · exact h
  · exact State.serveQueue_placed _ _ h

theorem State.takeClaim_placed (p : Port) (x : Nat) {s : State} (h : s.ca.queueHolds) :
    (s.takeClaim p x).1.ca.queueHolds := by
  unfold State.takeClaim
  dsimp only
  split
  · exact h
  split
  · exact State.serve_placed (placed_settled h p x)
  next above =>
  split
  · next once =>
    have alone := placed_settled h p x
    rw [once.2.1] at alone
    refine (Arbiter.queueHolds_iff _).mpr ?_
    show placed (s.ca.claims.set p ⟨x, x, .settled⟩) s.ca.queue
    rwa [once.2.1]
  · have deferred := placed_deferred h (due := s.now + ticksOfMs s.cfg.claimTimeout) (Nat.lt_of_not_le above)
    split
    · next state =>
      rw [if_neg (by simp [state])] at deferred
      exact deferred
    · next state =>
      rw [if_pos state] at deferred
      exact deferred

theorem State.timeOutClaim_placed (p : Port) {s : State} (h : s.ca.queueHolds) :
    (s.timeOutClaim p).ca.queueHolds := by
  unfold State.timeOutClaim
  split
  · exact placed_settled h p _
  · exact h

theorem State.acceptSagEnd_placed {s : State} (h : s.ca.queueHolds) : s.acceptSagEnd.ca.queueHolds := by
  unfold State.acceptSagEnd State.releaseSag
  split
  · exact State.serve_placed (Arbiter.queueHolds_of h (by simp) (by simp))
  · exact h

theorem State.acceptSag_placed {s : State} (h : s.ca.queueHolds) : s.acceptSag.ca.queueHolds := by
  unfold State.acceptSag State.assertSag
  dsimp only
  (repeat' split)
  · exact Arbiter.queueHolds_of h (by simp) (by simp)
  · exact Arbiter.queueHolds_of h (by simp) (by simp)
  · exact h

theorem State.boundary_placed {s : State} (h : s.ca.queueHolds) : s.boundary.ca.queueHolds := by
  have handed : ∀ (commit : Nat) (t : State), t.ca.queueHolds → (t.handInCommit commit).ca.queueHolds := by
    intro commit t ht
    unfold State.handInCommit
    split
    · exact ht
    · exact State.serve_placed (s := { t with ca := _ }) ht
  unfold State.boundary
  dsimp only
  rw [(State.startPhase_frame _ _).2.2.2.2.1]
  exact handed _ _ (by simpa using h)

theorem clear_placed (a : Arbiter) : ({ a with claims := .all ⟨0, 0, .settled⟩, queue := [] } : Arbiter).queueHolds :=
  ⟨List.nodup_nil, fun p => by simp⟩

theorem actRestart_placed (p : Port) (choice : Byte) {s : State} (h : s.ca.queueHolds) :
    (actRestart p choice s).1.ca.queueHolds := by
  unfold actRestart
  split
  · simpa [State.restart, State.clearClaims] using clear_placed _
  · exact h

theorem State.actOnSetting_placed (code : Nat) {s : State} (h : s.ca.queueHolds) :
    (s.actOnSetting code).ca.queueHolds := by
  unfold State.actOnSetting
  split
  case h_4 | h_5 => exact State.serve_placed h
  case h_1 => split <;> simpa using h
  all_goals simpa using h

theorem actConfigSet_placed (p : Port) (a : Byte × Int) {s : State} (h : s.ca.queueHolds) :
    (actConfigSet p a s).1.ca.queueHolds := by
  rcases actConfigSet_cases p a s with same | ⟨cfg, -, -, written⟩
  · rwa [same]
  · rw [written]
    exact State.actOnSetting_placed _ h

theorem queue_keptByCommands : KeptByCommands fun s => s.ca.queueHolds where
  configSet p a _ h := actConfigSet_placed p a h
  restart p a _ h := actRestart_placed p a h
  claim p a _ h := State.takeClaim_placed p a.toNat h
  claimTimeout p _ h := State.timeOutClaim_placed p h
  sagAssert _ h := State.acceptSag_placed h
  sagRelease _ h := State.acceptSagEnd_placed h
  frameBoundary s h := State.boundary_placed (s := s.reach s.fs.frameDue) h
  resetRelease s _ := clear_placed (.powerOn s.pins)

theorem queue_wireStable : WireStable fun s => s.ca.queueHolds :=
  ⟨fun _ _ _ h => h, fun _ _ h => h, fun _ _ h => h, fun _ _ h => h, fun _ _ _ _ _ _ h => h⟩

/-! ### The output queue -/

theorem outputs_keptByCommands : KeptByCommands fun s => s.pi.outQueue.length ≤ 4 where
  ported _ _ out _ _ _ h := by simpa [out] using h
  heard _ h := by simpa [State.setReceiver] using h
  slotted _ b _ h := by cases b <;> exact h
  surfaceByteGapTimeout s h := by unfold State.byteGap; split <;> exact h
  answerSlotAccept b _ _ s h := by unfold State.acceptRequest; dsimp only; split <;> cases b <;> exact h
  linkTimeout s h := by unfold State.linkExpiry; split <;> simpa [State.loseLink] using h
  queued s a room h := by simpa [State.queueAnswer] using room
  surfaceAnswerSent s h := by
    unfold State.answerSent
    split
    · exact h
    · next a rest queue => rw [queue] at h; exact Nat.le_of_succ_le h
  resetRelease _ _ := Nat.zero_le _

theorem outputs_wireStable : WireStable fun s => s.pi.outQueue.length ≤ 4 :=
  ⟨fun _ _ _ h => h, fun _ _ h => h, fun _ _ h => h, fun _ _ h => h, fun _ _ out _ _ _ h => by simpa [out] using h⟩

/-! ### The in-flight ring -/

/-- The ring holds at most four, its phase, numbers and window as R77, R78 and R85 state. -/
def FrameSequencer.ringHolds (f : FrameSequencer) : Prop := f.ring.length ≤ 4 ∧ f.sound

theorem consecutive_tail {f : FrameRecord} {ring : List FrameRecord} (h : consecutive (f :: ring)) :
    consecutive ring := by
  cases ring with
  | nil => trivial
  | cons g rest => exact h.2

/-- Only the numbers of the records count. -/
theorem consecutive_congr {ring ring' : List FrameRecord}
    (same : ring'.map FrameRecord.number = ring.map FrameRecord.number) (h : consecutive ring) :
    consecutive ring' := by
  induction ring generalizing ring' with
  | nil => simp at same; simp [same, consecutive]
  | cons f ring ih =>
    obtain ⟨f', rest', rfl, first, others⟩ := List.map_eq_cons_iff.mp same
    cases ring with
    | nil => simp at others; simp [others, consecutive]
    | cons g rest =>
      obtain ⟨g', rest'', rfl, second, -⟩ := List.map_eq_cons_iff.mp others
      exact ⟨by rw [first, second]; exact h.1, ih others h.2⟩

/-- A record numbered one above the newest joins at the end. -/
theorem consecutive_append {ring : List FrameRecord} {f : FrameRecord} (h : consecutive ring)
    (next : ∀ r, ring.getLast? = some r → f.number = r.number + 1) : consecutive (ring ++ [f]) := by
  induction ring with
  | nil => trivial
  | cons r ring ih =>
    cases ring with
    | nil => exact ⟨next r rfl, trivial⟩
    | cons g rest => exact ⟨h.1, ih h.2 (by simpa using next)⟩

/-- Records that keep their numbers keep the ring's soundness. -/
theorem FrameSequencer.ringHolds_renumbered {f : FrameSequencer} {ring : List FrameRecord} (h : f.ringHolds)
    (same : ring.map FrameRecord.number = f.ring.map FrameRecord.number) :
    ({ f with ring := ring } : FrameSequencer).ringHolds := by
  obtain ⟨short, phase, newest, numbers, window⟩ := h
  have length : ring.length = f.ring.length := by simpa using congrArg List.length same
  refine ⟨by simpa [length] using short, ?_, fun r last => ?_, consecutive_congr same numbers, window⟩
  · rw [phase, ← List.length_eq_zero_iff, ← List.length_eq_zero_iff, length]
  · have lastNumber : (f.ring.map FrameRecord.number).getLast? = some r.number := by
      rw [← same, List.getLast?_map, last]
      rfl
    rw [List.getLast?_map] at lastNumber
    obtain ⟨q, hq, number⟩ := Option.map_eq_some_iff.mp lastNumber
    rw [← number]
    exact newest q hq

/-- A change of the current frame's record that leaves its number keeps the ring. -/
theorem State.updateFrame_ring {change : FrameRecord → FrameRecord} {s : State}
    (number : ∀ f, (change f).number = f.number) (h : s.fs.ringHolds) : (s.updateFrame change).fs.ringHolds := by
  unfold State.updateFrame
  split
  · next f current =>
    refine FrameSequencer.ringHolds_renumbered h ?_
    unfold FrameSequencer.current at current
    split at current
    · cases current
    · obtain ⟨older, ring⟩ := List.getLast?_eq_some_iff.mp current
      simp [ring, number]
  · exact h

theorem State.shed_ring {s : State} (h : s.fs.ringHolds) : s.shed.fs.ringHolds :=
  State.updateFrame_ring (fun _ => rfl) h

/-- The strobe window opens in PRE and EXPOSE only (R78). -/
theorem State.openWindow_ring {s : State} (h : s.fs.ringHolds) (phase : s.fs.phase = .pre ∨ s.fs.phase = .expose) :
    s.openWindow.fs.ringHolds := by
  have opened : ({ s with fs := { s.fs with windowOpen := true } } : State).fs.ringHolds :=
    ⟨h.1, h.2.1, h.2.2.1, h.2.2.2.1, fun _ => phase⟩
  unfold State.openWindow
  dsimp only
  split
  · exact State.shed_ring opened
  · exact opened

theorem State.strobe_ring {s : State} (h : s.fs.ringHolds) (phase : s.fs.phase = .pre) :
    s.strobe.fs.ringHolds := by
  have opened := State.openWindow_ring h (.inl phase)
  unfold State.strobe
  dsimp only
  (repeat' split) <;> first | exact opened | exact h

/-- EXPOSE follows PRE, so the ring is not empty in it (R78). -/
theorem State.expose_ring {s : State} (h : s.fs.ringHolds) (phase : s.fs.phase = .pre) :
    s.expose.fs.ringHolds := by
  obtain ⟨short, empty, newest, numbers, -⟩ := h
  have exposed : ({ s with fs := { s.fs with phase := .expose } } : State).fs.ringHolds :=
    ⟨short, by simpa [phase] using empty, newest, numbers, fun _ => .inr rfl⟩
  unfold State.expose
  dsimp only
  split
  · exact State.openWindow_ring exposed (.inr rfl)
  · exact exposed

/-- The new record joins under the next number, and the oldest of four leaves (R77, R85). -/
theorem joinRing_ring {f : FrameSequencer} (h : f.ringHolds) {r : FrameRecord} {g : FrameSequencer}
    (number : r.number = f.frameNumber + 1) (phase : g.phase = .pre) (ring : g.ring = joinRing r f.ring)
    (count : g.frameNumber = f.frameNumber + 1) (window : g.windowOpen = false) : g.ringHolds := by
  obtain ⟨short, -, newest, numbers, -⟩ := h
  have kept : consecutive (if 4 ≤ f.ring.length then f.ring.tail else f.ring) := by
    split
    · cases ring' : f.ring with
      | nil => trivial
      | cons q rest => exact consecutive_tail (ring' ▸ numbers)
    · exact numbers
  have last : ∀ q, (if 4 ≤ f.ring.length then f.ring.tail else f.ring).getLast? = some q →
      r.number = q.number + 1 := by
    intro q hq
    rw [number]
    congr 1
    symm
    apply newest
    split at hq
    · cases ring' : f.ring with
      | nil => simp [ring'] at hq
      | cons x rest =>
        rw [ring', List.tail_cons] at hq
        rw [List.getLast?_cons, hq]
        rfl
    · exact hq
  refine ⟨?_, ?_, ?_, ?_, ?_⟩
  · simp only [ring, joinRing, List.length_append, List.length_singleton]
    split
    · simp; omega
    · omega
  · simp [phase, ring, joinRing]
  · simp [ring, joinRing, count, number]
  · rw [ring]
    exact consecutive_append kept last
  · simp [window]

@[simp] theorem State.openWindow_phase (s : State) : s.openWindow.fs.phase = s.fs.phase := by
  unfold State.openWindow
  dsimp only
  split <;> simp [State.shed]

@[simp] theorem State.strobe_phase (s : State) : s.strobe.fs.phase = s.fs.phase := by
  unfold State.strobe
  dsimp only
  (repeat' split) <;> simp

theorem State.startPhase_ring (t : Nat) {s : State}
    (h : ({ s with fs := { s.fs with phase := .pre } } : State).fs.ringHolds) :
    (s.startPhase t).fs.ringHolds := by
  have struck := State.strobe_ring h rfl
  unfold State.startPhase
  dsimp only
  split
  · split
    · exact State.expose_ring struck (by simp)
    · exact struck
  · split
    · exact State.expose_ring h rfl
    · exact h

theorem State.boundary_ring {s : State} (h : s.fs.ringHolds) : s.boundary.fs.ringHolds := by
  refine State.startPhase_ring _ ?_
  refine joinRing_ring (r := newRecord (s.fs.frameNumber + 1) s.sq.head? s.frameReady.ld.dwell s.frameAllocated)
    h rfl rfl ?_ ?_ ?_
  all_goals
    simp only [State.handInCommit_frame, State.driveFrame_frame]
    unfold State.frameBegun
    dsimp only
    split <;> simp [State.frameReady, State.latchFrame]

theorem State.endExposure_ring (f : FrameRecord) {s : State} (h : s.fs.ringHolds) (phase : s.fs.phase = .expose) :
    (s.endExposure f).fs.ringHolds := by
  obtain ⟨short, empty, newest, numbers, -⟩ := h
  have guarded : ({ s.fs with phase := .guard, windowOpen := false } : FrameSequencer).ringHolds :=
    ⟨short, by simpa [phase] using empty, newest, numbers, by simp⟩
  unfold State.endExposure
  dsimp only
  (repeat' split) <;> simpa using guarded

theorem State.takeStrobe_ring {s : State} (h : s.fs.ringHolds) : s.takeStrobe.fs.ringHolds := by
  unfold State.takeStrobe
  split
  · next pre => exact State.strobe_ring (s := s.reach _) h pre.1
  · exact h

theorem State.takeExposure_ring {s : State} (h : s.fs.ringHolds) : s.takeExposure.fs.ringHolds := by
  unfold State.takeExposure
  split
  · next pre => exact State.expose_ring (s := s.reach _) h pre
  · exact h

theorem State.takeMidpoint_ring {s : State} (h : s.fs.ringHolds) : s.takeMidpoint.fs.ringHolds := by
  unfold State.takeMidpoint
  (repeat' split) <;> first | exact h | exact State.updateFrame_ring (s := s.reach _) (fun _ => rfl) h

theorem State.takeExposureEnd_ring {s : State} (h : s.fs.ringHolds) : s.takeExposureEnd.fs.ringHolds := by
  unfold State.takeExposureEnd
  split
  · split
    · next expose => exact State.endExposure_ring (s := s.reach _) _ h expose
    · exact h
  · exact h

theorem State.takeLuma_ring (tag : Byte) (luma : Half) {s : State} (h : s.fs.ringHolds) :
    (s.takeLuma tag luma).fs.ringHolds := by
  refine FrameSequencer.ringHolds_renumbered h ?_
  rw [List.map_map]
  refine List.map_congr_left fun f _ => ?_
  unfold Function.comp FrameSequencer.lumaInto
  split <;> rfl

theorem State.acceptSag_ring {s : State} (h : s.fs.ringHolds) : s.acceptSag.fs.ringHolds := by
  unfold State.acceptSag State.assertSag
  split
  · dsimp only
    simp only [State.setEventAll_frame, State.journal_frame]
    split
    · exact State.shed_ring h
    · exact h
  · exact h

/-- A frame abandoned leaves the ring empty and the phase NONE (R102). -/
theorem ringHolds_empty {f : FrameSequencer} (phase : f.phase = .none) (ring : f.ring = [])
    (window : f.windowOpen = false) : f.ringHolds :=
  ⟨by simp [ring], by simp [phase, ring], by simp [ring], by simp [ring, consecutive], by simp [window]⟩

theorem actRestart_ring (p : Port) (choice : Byte) {s : State} (h : s.fs.ringHolds) :
    (actRestart p choice s).1.fs.ringHolds := by
  unfold actRestart
  split
  · refine ringHolds_empty ?_ ?_ ?_ <;> simp [State.restart, State.abandonFrame]
  · exact h

theorem ring_keptByCommands : KeptByCommands fun s => s.fs.ringHolds where
  restart p a _ h := actRestart_ring p a h
  attitude _ _ _ h := h
  pose _ _ _ h := h
  sagAssert _ h := State.acceptSag_ring h
  frameBoundary s h := State.boundary_ring (s := s.reach s.fs.frameDue) h
  strobeOn _ h := State.takeStrobe_ring h
  exposureStart _ h := State.takeExposure_ring h
  midpointCapture _ h := State.takeMidpoint_ring h
  exposureEnd _ h := State.takeExposureEnd_ring h
  lumaReport tag luma _ h := State.takeLuma_ring tag luma h
  attributeExpiry which s h := by unfold State.expireAttribute; (repeat' split) <;> exact h
  resetRelease _ _ := ringHolds_empty rfl rfl rfl

theorem ring_wireStable : WireStable fun s => s.fs.ringHolds :=
  ⟨fun _ _ _ h => h, fun _ _ h => h, fun _ _ h => h, fun _ _ h => h, fun _ _ _ _ _ _ h => h⟩

/-- Settles O57: each of the four blocks is kept by the moves of every command on its own. -/
theorem everyStepKeepsTheBlocksSound : Obligations.EveryStepKeepsTheBlocksSound := by
  intro s t queue places frames halts stepped
  obtain ⟨stills, ring, outputs⟩ := places
  have queue' := queue_keptByCommands.step queue_wireStable queue stepped
  have halts' := KeptByCommands.step (P := State.haltsHold) halts_keptByCommands halts_wireStable ⟨stills, halts⟩ stepped
  have ring' := ring_keptByCommands.step ring_wireStable ⟨ring, frames⟩ stepped
  have outputs' := outputs_keptByCommands.step outputs_wireStable outputs stepped
  exact ⟨queue', ⟨halts'.1, ring'.1, outputs'⟩, ring'.2, halts'.2⟩

end Sys2Proof.Machine
end

section
/-! The waypoint table under a change of the chainage (R47 to R51): how each slot is left, and on which side. -/

namespace Sys2Proof.Machine

theorem State.slot_setSlot (i j : Fin 16) (x : Slot) (s : State) :
    (s.setSlot i x).slot j = if i = j then x else s.slot j := by
  simp only [State.slot, State.setSlot, Fin.getElem_fin, Vector.getElem_set, Fin.ext_iff]

@[simp] theorem State.slot_setSlot_same (i : Fin 16) (x : Slot) (s : State) : (s.setSlot i x).slot i = x := by
  simp [State.slot_setSlot]

/-- A slot reads the table only. -/
theorem State.slot_congr {s t : State} (wt : t.wt = s.wt) (i : Fin 16) : t.slot i = s.slot i := by
  simp [State.slot, wt]

@[simp] theorem State.performAction_slot (i : Fin 16) (e : Waypoint) (n : Nat) (s : State) (j : Fin 16) :
    (s.performAction i e n).slot j = s.slot j := State.slot_congr (by simp) j

/-- R47's pair of sides: a sense matches the rise unless it is FALLING, the fall unless it is RISING. -/
theorem fires_iff (sense : Sense) (before after : Side) :
    fires sense before after = true ↔
      (before = .below ∧ after = .above ∧ sense ≠ .falling) ∨
        (before = .above ∧ after = .below ∧ sense ≠ .rising) := by
  cases sense <;> cases before <;> cases after <;> decide

/-- An ARMED slot fires when the pair of its old and its new side matches its sense, and else takes its new
side (R47). -/
theorem Slot.crossed_armed (c : Int) (e : Waypoint) (side : Side) :
    (Slot.armed e side).crossed c =
      if fires e.sense side (sideOf c e.point) then (afterFiring e c).1 else .armed e (sideOf c e.point) := by
  simp only [fires_iff]
  rfl

/-- One slot crossed leaves the others, and itself as R47 says. -/
theorem State.crossSlot_slot (c : Int) (s : State) (i j : Fin 16) :
    (State.crossSlot c s i).slot j = if i = j then (s.slot i).crossed c else s.slot j := by
  unfold State.crossSlot
  split
  · next e side slot =>
    rw [slot, Slot.crossed_armed]
    split
    · rw [State.performAction_slot, State.slot_setSlot]
    · rw [State.slot_setSlot]
  · next other =>
    have same : (s.slot i).crossed c = s.slot i := by
      cases slot : s.slot i with
      | armed e side => exact absurd slot (other e side)
      | free => rfl
      | spent e => rfl
    rw [same]
    split
    · next at_ => rw [at_]
    · rfl

theorem foldl_crossSlot_slot (c : Int) (is : List (Fin 16)) (distinct : is.Nodup) (s : State) (j : Fin 16) :
    (is.foldl (State.crossSlot c) s).slot j = if j ∈ is then (s.slot j).crossed c else s.slot j := by
  induction is generalizing s with
  | nil => simp
  | cons i is ih =>
    obtain ⟨fresh, rest⟩ := List.nodup_cons.mp distinct
    rw [List.foldl_cons, ih rest, State.crossSlot_slot]
    by_cases at_ : i = j
    · subst at_
      simp [fresh]
    · simp [at_, Ne.symm at_]

/-- A change of the published chainage crosses every slot, each once (R48). -/
theorem foldl_crossSlot_slotNumbers (c : Int) (s : State) (j : Fin 16) :
    (slotNumbers.foldl (State.crossSlot c) s).slot j = (s.slot j).crossed c := by
  rw [foldl_crossSlot_slot c slotNumbers (by decide)]
  exact if_pos (by revert j; decide)

/-! ### Sides after a firing (R50) -/

theorem ceilDiv_mul_ge (x : Nat) {y : Nat} (hy : 0 < y) : x ≤ ceilDiv x y * y := by
  unfold ceilDiv
  have := Nat.div_add_mod (x + (y - 1)) y
  have := Nat.mod_lt (x + (y - 1)) hy
  have := Nat.mul_comm y ((x + (y - 1)) / y)
  omega

/-- The next repeat point lies on the side of the chainage that the firing gives it (R50). -/
theorem repeatOf_side (e : Waypoint) {interval : Nat} (c : Int) (positive : interval ≠ 0) :
    (repeatOf e interval c).2.2 = sideOf c (repeatOf e interval c).2.1 := by
  have hpos : 0 < interval := Nat.pos_of_ne_zero positive
  unfold repeatOf
  split
  · have := ceilDiv_mul_ge (e.point - c).toNat hpos
    have cast : ((ceilDiv (e.point - c).toNat interval * interval : Nat) : Int) =
        interval * ceilDiv (e.point - c).toNat interval := by push_cast; ring
    have reached : ¬ c < e.point - interval * ceilDiv (e.point - c).toNat interval := by omega
    simp [sideOf, reached]
  · have := Nat.div_add_mod (c - e.point).toNat interval
    have := Nat.mod_lt (c - e.point).toNat hpos
    have cast : (interval : Int) * (((c - e.point).toNat / interval + 1 : Nat) : Int) =
        (interval * ((c - e.point).toNat / interval) : Nat) + interval := by push_cast; ring
    have passed : c < e.point + interval * (((c - e.point).toNat / interval + 1 : Nat) : Int) := by omega
    simp only [sideOf, passed, if_true]

/-- A firing leaves the slot on its right side (R41, R50). -/
theorem afterFiring_sided {e : Waypoint} (c : Int) (interval : e.interval ≠ some 0) :
    (afterFiring e c).1.sided c := by
  unfold afterFiring
  split
  · trivial
  · next n repeats =>
    have positive : n ≠ 0 := fun zero => interval (by rw [repeats, zero])
    have side := repeatOf_side e c positive
    dsimp only
    split
    · trivial
    · exact ⟨side, interval⟩

/-- A crossed slot stands on the side of the new chainage (R47). -/
theorem Slot.crossed_sided {old : Int} (c : Int) {x : Slot} (h : x.sided old) : (x.crossed c).sided c := by
  cases x with
  | free => trivial
  | spent e => trivial
  | armed e side =>
    rw [Slot.crossed_armed]
    split
    · exact afterFiring_sided c h.2
    · exact ⟨rfl, h.2⟩

theorem Slot.resided_sided {old : Int} (c : Int) {x : Slot} (h : x.sided old) : (x.resided c).sided c := by
  cases x with
  | free => trivial
  | spent e => trivial
  | armed e side => exact ⟨rfl, h.2⟩

@[simp] theorem State.recomputeSides_slot (s : State) (i : Fin 16) :
    s.recomputeSides.slot i = (s.slot i).resided s.cu.chainage := by
  simp [State.recomputeSides, State.slot]

end Sys2Proof.Machine
end

section
/-! The chainage unit's residuals, limits and trust (R3, R15, R19, R20) with the sides of the waypoints (R41)
under every command. -/

namespace Sys2Proof.Machine

/-- The chainage in range, the trusted track its table's, and every side right. -/
def State.positionHolds (s : State) : Prop := s.cu.inRange ∧ s.trustHolds ∧ s.sidesHold

theorem State.positionHolds_of {s t : State} (h : s.positionHolds) (cu : t.cu = s.cu) (wt : t.wt = s.wt)
    (cfg : t.cfg = s.cfg) : t.positionHolds := by
  obtain ⟨range, trust, sides⟩ := h
  refine ⟨cu ▸ range, ?_, fun i => ?_⟩
  · unfold State.trustHolds
    rwa [cu, cfg]
  · rw [State.slot_congr wt, cu]
    exact sides i

/-- Choosing the track again makes it the one its table names, whatever it was (R15). -/
theorem State.chooseTrust_position {s : State} (range : s.cu.inRange) (sides : s.sidesHold) :
    s.chooseTrust.positionHolds := ⟨range, rfl, sides⟩

theorem State.journalState_position (causes : StateCauses) (before : Agreement) {s : State} (h : s.positionHolds) :
    (s.journalState causes before).positionHolds :=
  State.positionHolds_of h (by simp) (by simp) (by simp)

theorem State.closeWindow_position {s : State} (h : s.positionHolds) : s.closeWindow.positionHolds := by
  obtain ⟨range, trust, sides⟩ := h
  unfold State.closeWindow
  dsimp only
  split
  · exact State.journalState_position _ _ (State.chooseTrust_position range sides)
  · next same =>
    simp only [closeCauses, Bool.or_eq_true, decide_eq_true_eq, not_or, not_not] at same
    refine ⟨range, ?_, sides⟩
    unfold State.trustHolds at *
    dsimp only
    rw [same.1, same.2]
    exact trust

theorem State.testWindow_position {s : State} (h : s.positionHolds) : s.testWindow.positionHolds := by
  unfold State.testWindow
  dsimp only
  split
  · exact State.closeWindow_position h
  · exact h

theorem clampInt_within {a b : Int} (x : Int) (h : a ≤ b) : a ≤ clampInt a b x ∧ clampInt a b x ≤ b := by
  unfold clampInt
  split
  · omega
  · split <;> omega

theorem chLimits : chMin ≤ chMax := by decide

theorem State.advance_position (mm : Int) {s : State} (h : s.positionHolds) : (s.advance mm).positionHolds := by
  obtain ⟨⟨-, rest⟩, trust, sides⟩ := h
  have range : ∀ sat, ({ s.cu with chainage := clampInt chMin chMax (s.cu.chainage + mm), sat := sat } :
      Chainage).inRange := fun _ => ⟨clampInt_within _ chLimits, rest⟩
  unfold State.advance
  dsimp only
  split
  · refine ⟨by simpa using range _, ?_, fun i => ?_⟩
    · unfold State.trustHolds at *
      simpa using trust
    · simp only [State.crossWaypoints_frame]
      unfold State.crossWaypoints
      rw [foldl_crossSlot_slotNumbers]
      exact Slot.crossed_sided _ (sides i)
  · next still =>
    refine ⟨range _, trust, fun i => ?_⟩
    rw [ne_eq, not_not] at still
    show (s.slot i).sided (clampInt chMin chMax (s.cu.chainage + mm))
    rw [still]
    exact sides i

theorem State.wheelIncrement_position (mm : Int) {s : State} (h : s.positionHolds) :
    (s.wheelIncrement mm).positionHolds := by
  refine State.testWindow_position ?_
  split
  · exact State.advance_position mm h
  · exact h

theorem State.cableIncrement_position (mm : Int) {s : State} (h : s.positionHolds) :
    (s.cableIncrement mm).positionHolds := by
  refine State.testWindow_position ?_
  split
  · exact State.advance_position mm h
  · exact h

/-- What is left of a sum after its whole mm is less than one mm (R3, R7). -/
theorem residual_le (sum : Int) : (sum.tmod 1000).natAbs ≤ 999 := by
  have := Nat.mod_lt sum.natAbs (show 0 < 1000 by decide)
  rw [Int.natAbs_tmod]
  exact Nat.le_of_lt_succ this

theorem State.wheelStep_position (forward : Bool) {s : State} (h : s.positionHolds) :
    (s.wheelStep forward).positionHolds := by
  obtain ⟨⟨limits, velocity, -, rest⟩, trust, sides⟩ := h
  unfold State.wheelStep
  dsimp only
  generalize s.cu.wheelResidual + _ = sum
  have kept : ({ s with cu := { s.cu with wheelResidual := sum.tmod 1000 } } : State).positionHolds :=
    ⟨⟨limits, velocity, residual_le sum, rest⟩, trust, sides⟩
  split
  · exact kept
  · exact State.wheelIncrement_position _ kept

theorem State.illegalTransition_position {s : State} (h : s.positionHolds) : s.illegalTransition.positionHolds := by
  unfold State.illegalTransition
  dsimp only
  split
  · exact State.journalState_position _ _ (State.chooseTrust_position h.1 h.2.2)
  · exact h

theorem State.acceptPair_position (wa wb : Bool) {s : State} (h : s.positionHolds) :
    (s.acceptPair wa wb).positionHolds := by
  unfold State.acceptPair
  dsimp only
  split
  · exact h
  · exact State.wheelStep_position _ h
  · exact State.illegalTransition_position h

theorem State.loseCable_position {s : State} (h : s.positionHolds) : s.loseCable.positionHolds :=
  State.journalState_position _ _ (State.chooseTrust_position h.1 h.2.2)

theorem State.findCable_position {s : State} (h : s.positionHolds) : s.findCable.positionHolds :=
  State.journalState_position _ _ (State.chooseTrust_position h.1 h.2.2)

theorem State.applyReel_position (count : Word32) {s : State} (h : s.positionHolds) :
    (s.applyReel count).positionHolds := by
  unfold State.applyReel
  split
  · exact h
  · next last _ =>
    dsimp only
    split
    · exact State.journalState_position _ _ h
    · generalize s.cu.cableResidual + _ = sum
      obtain ⟨⟨limits, velocity, wheel, -, rest⟩, trust, sides⟩ := h
      have kept : ({ s with cu := { s.cu with reelSeed := some count, cableResidual := sum.tmod 1000 } } :
          State).positionHolds := ⟨⟨limits, velocity, wheel, residual_le sum, rest⟩, trust, sides⟩
      split
      · exact kept
      · exact State.cableIncrement_position _ kept

theorem State.takeReel_position (count : Word32) {s : State} (h : s.positionHolds) :
    (s.takeReel count).positionHolds := by
  refine State.applyReel_position count ?_
  split
  · exact State.findCable_position h
  · exact h

/-! ### Re-references, runs and gates -/

theorem nextSkippingZero_ne_zero (x : Half) : nextSkippingZero x ≠ 0 := by
  unfold nextSkippingZero
  split
  · decide
  · next last => bv_omega

theorem State.recomputeSides_position {s : State} (range : s.cu.inRange) (trust : s.trustHolds)
    (entries : ∀ i, ∃ c, (s.slot i).sided c) : s.recomputeSides.positionHolds := by
  refine ⟨range, trust, fun i => ?_⟩
  obtain ⟨c, sided⟩ := entries i
  rw [State.recomputeSides_slot]
  exact Slot.resided_sided _ sided

theorem State.rereference_position (v : Int) (requester : Requester) {s : State} (h : s.positionHolds) :
    (s.rereference v requester).positionHolds := by
  obtain ⟨⟨-, velocity, wheel, cable, -, history⟩, trust, sides⟩ := h
  have kept := State.recomputeSides_position
    (s := { s with cu := { s.cu with
      chainage := clampInt chMin chMax v
      sat := decide (clampInt chMin chMax v ≠ v)
      epoch := nextSkippingZero s.cu.epoch
      history := s.cu.history.map (· + (clampInt chMin chMax v - s.cu.chainage)) } })
    ⟨clampInt_within _ chLimits, velocity, wheel, cable, nextSkippingZero_ne_zero _, by simpa using history⟩
    trust (fun i => ⟨_, sides i⟩)
  exact State.positionHolds_of kept (by simp [State.rereference, State.recomputeSides])
    (by simp [State.rereference, State.recomputeSides]) (by simp [State.rereference, State.recomputeSides])

/-- What RUN START does before its re-reference: the run before is closed when one is open, and the run's
number, clock and totals start (R36). -/
def State.runBegun (s : State) : State :=
  let s := if s.cu.runState = .survey then s.closeRun true else s
  { s with cu := { s.cu with
      runNumber := nextSkippingZero s.cu.runNumber
      runClock := 0
      clockDue := s.now + ticksOfMs 1
      runState := .survey
      runWheelBase := s.cu.wheelTrack
      runCableBase := s.cu.cableTrack } }

/-- The re-reference of RUN START with the window that opens after it (R36). -/
def State.runReferenced (offset : Int) (s : State) : State :=
  let s := (s.runBegun.rereference offset .runStart).reopenWindow
  { s with cu := { s.cu with differing := none } }

theorem State.startRun_eq (offset : Int) (direction : Direction) (label : List Byte) (s : State) :
    s.startRun offset direction label = (s.runReferenced offset).journal (.runOpen direction label) := rfl

/-- The close of a run writes the run state only (R37). -/
theorem State.closeRun_position (implicit : Bool) {s : State} (h : s.positionHolds) :
    (s.closeRun implicit).positionHolds :=
  State.positionHolds_of (s := { s with cu := { s.cu with runState := .idle } }) h
    (by simp [State.closeRun]) (by simp) (by simp)

theorem State.runBegun_position {s : State} (h : s.positionHolds) : s.runBegun.positionHolds := by
  unfold State.runBegun
  dsimp only
  split
  · exact State.closeRun_position true h
  · exact h

theorem State.startRun_position (offset : Int) (direction : Direction) (label : List Byte) {s : State}
    (h : s.positionHolds) : (s.startRun offset direction label).positionHolds := by
  have referenced : (s.runReferenced offset).positionHolds := by
    have anew := State.rereference_position offset .runStart (State.runBegun_position h)
    unfold State.runReferenced
    generalize s.runBegun.rereference offset .runStart = r at anew
    exact anew
  rw [State.startRun_eq]
  exact State.positionHolds_of referenced (by simp) (by simp) (by simp)

theorem State.gate_position {s : State} (h : s.positionHolds) : s.gate.positionHolds := by
  obtain ⟨⟨limits, -, wheel, cable, epoch, history⟩, trust, sides⟩ := h
  refine ⟨⟨limits, clampInt_within _ (by decide), wheel, cable, epoch, ?_⟩, trust, sides⟩
  simp [State.gate, history]

theorem State.takeGate_position {s : State} (h : s.positionHolds) : s.takeGate.positionHolds := by
  have gated : ((s.reach s.cu.gateDue).gate).positionHolds := State.gate_position h
  unfold State.takeGate
  exact State.positionHolds_of gated (by simp) (by simp) (by simp)

/-! ### Requests -/

theorem State.setSlot_position {i : Fin 16} {x : Slot} {s : State} (h : s.positionHolds)
    (sided : x.sided s.cu.chainage) : (s.setSlot i x).positionHolds := by
  obtain ⟨range, trust, sides⟩ := h
  refine ⟨range, trust, fun j => ?_⟩
  rw [State.slot_setSlot]
  split
  · exact sided
  · exact sides j

/-- A PLACE that passes R42 asks for no repeat of interval 0. -/
theorem placeEntry_interval {p : Port} {a : PlaceArgs} {e : Waypoint} (h : placeEntry p a = some e) :
    e.interval ≠ some 0 := by
  unfold placeEntry at h
  split at h
  · split at h
    · next ok =>
      cases h
      intro zero
      have repeats := ok.2.2
      dsimp only at zero
      simp [placeRepeatOk, zero] at repeats
    · cases h
  · cases h

theorem actPlace_position (p : Port) (a : PlaceArgs) {s : State} (h : s.positionHolds) :
    (actPlace p a s).1.positionHolds := by
  unfold actPlace
  split
  · exact h
  · split
    · exact h
    · next e entry =>
      split
      · exact h
      · exact State.setSlot_position h ⟨rfl, placeEntry_interval entry⟩

theorem actClear_position (p : Port) (slot : Byte) {s : State} (h : s.positionHolds) :
    (actClear p slot s).1.positionHolds := by
  unfold actClear
  split
  · exact h
  · split
    · exact State.setSlot_position h trivial
    · exact h

/-- Writing any other parameter leaves the source mode. -/
theorem Settings.put_sourceMode {code : Nat} {v : Int} {c c' : Settings} (put : c.put code v = some c')
    (other : code ≠ 0x09) : c'.sourceMode = c.sourceMode := by
  unfold Settings.put at put
  split at put
  · obtain ⟨l, -, rfl⟩ := Option.map_eq_some_iff.mp put
    rfl
  · unfold Settings.putNamed at put
    split at put
    case h_9 => exact absurd rfl other
    case h_10 =>
      split at put
      · cases put; rfl
      · cases put
    case h_27 => cases put
    all_goals
      obtain ⟨-, rfl⟩ := rangedNat_eq_some.mp put
      rfl

/-- A write keeps the position: the source mode's chooses the track again at once, the silence limit's may
lose the cable, and no other touches what the track is chosen from (R15, R18, R176). -/
theorem actConfigSet_position (p : Port) (a : Byte × Int) {s : State} (h : s.positionHolds) :
    (actConfigSet p a s).1.positionHolds := by
  rcases actConfigSet_cases p a s with same | ⟨cfg, put, -, written⟩
  · rwa [same]
  · rw [written]
    obtain ⟨range, trust, sides⟩ := h
    have kept (other : a.1.toNat ≠ 0x09) : ({ s with cfg := cfg } : State).positionHolds := by
      refine ⟨range, ?_, sides⟩
      unfold State.trustHolds
      rw [Settings.put_sourceMode put other]
      exact trust
    generalize a.1.toNat = code at *
    unfold State.actOnSetting
    split
    case h_1 =>
      split
      · exact State.loseCable_position (kept (by decide))
      · exact kept (by decide)
    case h_2 => exact kept (by decide)
    case h_3 => exact State.chooseTrust_position range sides
    case h_11 other _ _ _ _ _ _ _ => exact kept other
    all_goals exact State.positionHolds_of (kept (by decide)) (by simp) (by simp) (by simp)

theorem State.reseed_position {s : State} (h : s.positionHolds) : s.reseed.positionHolds := by
  have forgotten : ({ s with cu := { s.cu with reelSeed := none } } : State).positionHolds := h
  unfold State.reseed
  dsimp only
  split
  · exact forgotten
  · exact State.loseCable_position forgotten

theorem State.restart_position (reseed : Bool) {s : State} (h : s.positionHolds) :
    (s.restart reseed).positionHolds := by
  have seeded : (if reseed then s.reseed else s).positionHolds := by
    split
    · exact State.reseed_position h
    · exact h
  unfold State.restart
  dsimp only
  generalize (if reseed then s.reseed else s) = r at seeded
  have resided := State.recomputeSides_position seeded.1 seeded.2.1 fun i => ⟨_, seeded.2.2 i⟩
  exact State.positionHolds_of resided (by simp) (by simp) (by simp)

theorem actRestart_position (p : Port) (choice : Byte) {s : State} (h : s.positionHolds) :
    (actRestart p choice s).1.positionHolds := by
  unfold actRestart
  split
  · exact State.restart_position _ h
  · exact h

theorem actRunStart_position (p : Port) (a : Int × Byte × List Byte) {s : State} (h : s.positionHolds) :
    (actRunStart p a s).1.positionHolds := by
  unfold actRunStart
  split
  · exact h
  · exact State.startRun_position _ _ _ h

theorem actRunEnd_position (p : Port) (a : Unit) {s : State} (h : s.positionHolds) :
    (actRunEnd p a s).1.positionHolds := by
  unfold actRunEnd
  split
  · exact h
  · exact State.closeRun_position false h

theorem actSetChainage_position (p : Port) (a : Int × Half) {s : State} (h : s.positionHolds) :
    (actSetChainage p a s).1.positionHolds := by
  unfold actSetChainage
  split
  · exact State.rereference_position _ _ h
  · exact h

theorem State.expireSilence_position {s : State} (h : s.positionHolds) : s.expireSilence.positionHolds := by
  unfold State.expireSilence
  split
  · exact State.loseCable_position h
  · exact h

/-- Of a line's functions only ZERO touches the position (R180). -/
theorem State.activeEdge_position (n : Fin 4) {s : State} (h : s.positionHolds) :
    (s.activeEdge n).positionHolds := by
  unfold State.activeEdge State.lineFunction
  split
  case h_2 => exact State.rereference_position _ _ (State.positionHolds_of h (by simp) (by simp) (by simp))
  all_goals exact State.positionHolds_of h (by simp) (by simp) (by simp)

theorem Chainage.powerOn_inRange (p : Pins) : (Chainage.powerOn p).inRange := by
  unfold Chainage.inRange Chainage.powerOn
  dsimp only
  decide

theorem State.powerOn_position (p : Pins) : (State.powerOn p).positionHolds := by
  refine ⟨Chainage.powerOn_inRange p, rfl, fun i => ?_⟩
  simp [State.powerOn, State.slot, Slot.sided]

/-- The chainage, the trusted track and the sides stay right under every command. -/
theorem position_keptByCommands : KeptByCommands fun s : State =>
    s.cu.inRange ∧
    s.cu.trusted = trustedTrack s.cfg.sourceMode s.cu.agreement s.cu.wheelFault s.cu.cableLost ∧
    ∀ i : Fin 16, (s.wt[i]).sided s.cu.chainage where
  configSet p a _ h := actConfigSet_position p a h
  restart p a _ h := actRestart_position p a h
  runStart p a _ h := actRunStart_position p a h
  runEnd p a _ h := actRunEnd_position p a h
  zero _ v _ h := State.rereference_position v .zero h
  setChainage p a _ h := actSetChainage_position p a h
  reelReport _ count s h := State.takeReel_position count (s := s) h
  waypointPlace p a _ h := actPlace_position p a h
  waypointClear p a _ h := actClear_position p a h
  wheelFilterAccept wa wb _ h := State.acceptPair_position wa wb h
  reelSilenceExpiry _ h := State.expireSilence_position h
  runClockTick _ h := h
  velocityGate _ h := State.takeGate_position h
  lineEdge n _ h := State.activeEdge_position n h
  resetRelease s _ := State.powerOn_position s.pins

theorem position_wireStable : WireStable State.positionHolds :=
  ⟨fun _ _ _ h => h, fun _ _ h => h, fun _ _ h => h, fun _ _ h => h, fun _ _ _ _ _ _ h => h⟩

/-- Settles O55: every change of the chainage leaves each slot crossed or its side computed again, and every
change of what the track is chosen from is followed by the choice. -/
theorem everyStepKeepsThePositionSound : Obligations.EveryStepKeepsThePositionSound :=
  fun _ _ range trust sides _ =>
    KeptByCommands.step (P := State.positionHolds) position_keptByCommands position_wireStable
      ⟨range, trust, sides⟩

end Sys2Proof.Machine
end

section
/-! The table of requests (12.1, 12.2, 10.5): each request's rights and lengths, and what its checks give. -/

namespace Sys2Proof.Machine

/-! ### Lengths (R186) -/

theorem parseNone_isSome (args : List Byte) : (parseNone args).isSome = decide (args.length = 0) := by
  cases args <;> simp [parseNone]

theorem parseU8_isSome (args : List Byte) : (parseU8 args).isSome = decide (args.length = 1) := by
  rcases args with _ | ⟨b, _ | ⟨b1, rest⟩⟩ <;> simp [parseU8]

theorem parseU16_isSome (args : List Byte) : (parseU16 args).isSome = decide (args.length = 2) := by
  rcases args with _ | ⟨b0, _ | ⟨b1, _ | ⟨b2, rest⟩⟩⟩ <;> simp [parseU16]

theorem parseU32_isSome (args : List Byte) : (parseU32 args).isSome = decide (args.length = 4) := by
  rcases args with _ | ⟨b0, _ | ⟨b1, _ | ⟨b2, _ | ⟨b3, _ | ⟨b4, rest⟩⟩⟩⟩⟩ <;> simp [parseU32]

theorem parseS32_isSome (args : List Byte) : (parseS32 args).isSome = decide (args.length = 4) := by
  simp only [parseS32, Option.isSome_map, parseU32_isSome]

theorem parseSetChainage_isSome (args : List Byte) :
    (parseSetChainage args).isSome = decide (args.length = 6) := by
  rcases args with _ | ⟨b0, _ | ⟨b1, _ | ⟨b2, _ | ⟨b3, _ | ⟨b4, _ | ⟨b5, _ | ⟨b6, rest⟩⟩⟩⟩⟩⟩⟩ <;>
    simp [parseSetChainage]

theorem parseRunStart_isSome (args : List Byte) :
    (parseRunStart args).isSome = (decide (5 ≤ args.length) && decide (args.length ≤ 21)) := by
  rcases args with _ | ⟨b0, _ | ⟨b1, _ | ⟨b2, _ | ⟨b3, _ | ⟨d, label⟩⟩⟩⟩⟩
  case cons.cons.cons.cons.cons =>
    by_cases fits : label.length ≤ 16
    · simp [parseRunStart, fits]; omega
    · simp [parseRunStart, fits]; omega
  all_goals simp [parseRunStart]

theorem parseConfigSet_isSome (args : List Byte) : (parseConfigSet args).isSome = decide (args.length = 5) := by
  rcases args with _ | ⟨b0, _ | ⟨b1, _ | ⟨b2, _ | ⟨b3, _ | ⟨b4, _ | ⟨b5, rest⟩⟩⟩⟩⟩⟩ <;> simp [parseConfigSet]

theorem parseStill_isSome (args : List Byte) :
    (parseStill args).isSome = (decide (args.length = 0) || decide (args.length = 2)) := by
  rcases args with _ | ⟨b0, _ | ⟨b1, _ | ⟨b2, rest⟩⟩⟩ <;> simp [parseStill]

theorem parseWeights_isSome (args : List Byte) : (parseWeights args).isSome = decide (args.length = 4) := by
  rcases args with _ | ⟨b0, _ | ⟨b1, _ | ⟨b2, _ | ⟨b3, _ | ⟨b4, rest⟩⟩⟩⟩⟩ <;> simp [parseWeights]

theorem parsePresetWrite_isSome (args : List Byte) :
    (parsePresetWrite args).isSome = decide (args.length = 5) := by
  cases args with
  | nil => simp [parsePresetWrite]
  | cons k weights => simp [parsePresetWrite, parseWeights_isSome]

theorem parseAttitude_isSome (args : List Byte) : (parseAttitude args).isSome = decide (args.length = 4) := by
  rcases args with _ | ⟨b0, _ | ⟨b1, _ | ⟨b2, _ | ⟨b3, _ | ⟨b4, rest⟩⟩⟩⟩⟩ <;> simp [parseAttitude]

theorem parsePose_isSome (args : List Byte) : (parsePose args).isSome = decide (args.length = 5) := by
  rcases args with _ | ⟨b0, _ | ⟨b1, _ | ⟨b2, _ | ⟨b3, _ | ⟨b4, _ | ⟨b5, rest⟩⟩⟩⟩⟩⟩ <;> simp [parsePose]

theorem parseNote_isSome (args : List Byte) : (parseNote args).isSome = decide (args.length ≤ 32) := by
  by_cases fits : args.length ≤ 32 <;> simp [parseNote, fits]

/-! ### The marked fields of WAYPOINT PLACE (12.2) -/

/-- A field takes its bytes off the front when it is marked and they are there. -/
theorem takeU8_fits {marked : Bool} {bs : List Byte} (fits : marked.toNat ≤ bs.length) :
    ∃ x, takeU8 marked bs = some (x, bs.drop marked.toNat) := by
  cases marked with
  | false => exact ⟨none, by simp [takeU8]⟩
  | true =>
    obtain ⟨b, rest, rfl⟩ := List.exists_cons_of_length_pos fits
    exact ⟨some b, by simp [takeU8]⟩

theorem takeU16_fits {marked : Bool} {bs : List Byte} (fits : 2 * marked.toNat ≤ bs.length) :
    ∃ x, takeU16 marked bs = some (x, bs.drop (2 * marked.toNat)) := by
  cases marked with
  | false => exact ⟨none, by simp [takeU16]⟩
  | true =>
    rcases bs with _ | ⟨b0, _ | ⟨b1, rest⟩⟩
    · simp at fits
    · simp at fits
    · exact ⟨some (half b0 b1), by simp [takeU16]⟩

theorem takeU32_fits {marked : Bool} {bs : List Byte} (fits : 4 * marked.toNat ≤ bs.length) :
    ∃ x, takeU32 marked bs = some (x, bs.drop (4 * marked.toNat)) := by
  cases marked with
  | false => exact ⟨none, by simp [takeU32]⟩
  | true =>
    rcases bs with _ | ⟨b0, _ | ⟨b1, _ | ⟨b2, _ | ⟨b3, rest⟩⟩⟩⟩
    case cons.cons.cons.cons => exact ⟨some (word b0 b1 b2 b3), by simp [takeU32]⟩
    all_goals simp at fits

/-- What a field has left behind is shorter by its bytes. -/
theorem takeU8_length {marked : Bool} {bs rest : List Byte} {x : Option Byte}
    (taken : takeU8 marked bs = some (x, rest)) : bs.length = rest.length + marked.toNat := by
  cases marked with
  | false => simp [takeU8] at taken; simp [taken]
  | true =>
    rcases bs with _ | ⟨b, more⟩
    · simp [takeU8] at taken
    · simp [takeU8] at taken; simp [taken]

theorem takeU16_length {marked : Bool} {bs rest : List Byte} {x : Option Half}
    (taken : takeU16 marked bs = some (x, rest)) : bs.length = rest.length + 2 * marked.toNat := by
  cases marked with
  | false => simp [takeU16] at taken; simp [taken]
  | true =>
    rcases bs with _ | ⟨b0, _ | ⟨b1, more⟩⟩
    · simp [takeU16] at taken
    · simp [takeU16] at taken
    · simp [takeU16] at taken; simp [taken]

theorem takeU32_length {marked : Bool} {bs rest : List Byte} {x : Option Word32}
    (taken : takeU32 marked bs = some (x, rest)) : bs.length = rest.length + 4 * marked.toNat := by
  cases marked with
  | false => simp [takeU32] at taken; simp [taken]
  | true =>
    rcases bs with _ | ⟨b0, _ | ⟨b1, _ | ⟨b2, _ | ⟨b3, more⟩⟩⟩⟩
    all_goals simp [takeU32] at taken
    simp [taken]

/-- Eight bytes and then those of the marked fields are parsed as a PLACE. -/
theorem parsePlace_fits {slot mask b0 b1 b2 b3 sense action : Byte} {fields : List Byte}
    (fits : fields.length = markedBytes mask) :
    ∃ a, parsePlace (slot :: mask :: b0 :: b1 :: b2 :: b3 :: sense :: action :: fields) = some a := by
  unfold markedBytes at fits
  obtain ⟨preset, ateU8⟩ := takeU8_fits (marked := mask.getLsbD 0) (bs := fields) (by omega)
  generalize first : fields.drop _ = afterPreset at ateU8
  have := takeU8_length ateU8
  obtain ⟨code, ateU16⟩ := takeU16_fits (marked := mask.getLsbD 1) (bs := afterPreset) (by omega)
  generalize second : afterPreset.drop _ = afterCode at ateU16
  have := takeU16_length ateU16
  obtain ⟨interval, ateU32⟩ := takeU32_fits (marked := mask.getLsbD 2) (bs := afterCode) (by omega)
  generalize third : afterCode.drop _ = afterInterval at ateU32
  have := takeU32_length ateU32
  obtain ⟨remaining, ateLast⟩ := takeU16_fits (marked := mask.getLsbD 3) (bs := afterInterval) (by omega)
  have nothing : afterInterval.drop (2 * (mask.getLsbD 3).toNat) = [] := List.drop_eq_nil_of_le (by omega)
  rw [nothing] at ateLast
  simp only [parsePlace, ateU8, ateU16, ateU32, ateLast]
  exact ⟨_, rfl⟩

/-- A PLACE that parses has eight bytes and those of its marked fields. -/
theorem parsePlace_length {slot mask b0 b1 b2 b3 sense action : Byte} {fields : List Byte} {a : PlaceArgs}
    (parsed : parsePlace (slot :: mask :: b0 :: b1 :: b2 :: b3 :: sense :: action :: fields) = some a) :
    fields.length = markedBytes mask := by
  unfold parsePlace at parsed
  dsimp only at parsed
  split at parsed
  · cases parsed
  · next ateU8 =>
    split at parsed
    · cases parsed
    · next ateU16 =>
      split at parsed
      · cases parsed
      · next ateU32 =>
        split at parsed
        · next ateLast =>
          have := takeU8_length ateU8
          have := takeU16_length ateU16
          have := takeU32_length ateU32
          have := takeU16_length ateLast
          unfold markedBytes
          simp only [List.length_nil] at *
          omega
        · cases parsed

theorem parsePlace_isSome (args : List Byte) :
    (parsePlace args).isSome =
      (decide (8 ≤ args.length) && decide (args.length = 8 + markedBytes (args.getD 1 0))) := by
  rcases args with _ | ⟨slot, _ | ⟨mask, _ | ⟨b0, _ | ⟨b1, _ | ⟨b2, _ | ⟨b3, _ | ⟨sense, _ | ⟨action, fields⟩⟩⟩⟩⟩⟩⟩⟩
  case cons.cons.cons.cons.cons.cons.cons.cons =>
    rw [Bool.eq_iff_iff, Option.isSome_iff_exists]
    simp only [List.length_cons, List.getD_cons_succ, List.getD_cons_zero, Bool.and_eq_true, decide_eq_true_eq]
    constructor
    · rintro ⟨a, parsed⟩
      have := parsePlace_length parsed
      omega
    · intro fits
      exact parsePlace_fits (by omega)
  all_goals simp [parsePlace]

/-! ### The requests one by one -/

/-- A known request is its own checks with the rights of 10.5 and the lengths of 12.2. -/
theorem exec_asRequest {i : Instr} {p : Port} {code : Byte} {args : List Byte}
    (h : asRequest i = some (p, code, args)) (known : i ≠ .unknownRequest p code args) :
    ∃ (α : Type) (rights : Port → Bool) (parse : List Byte → Option α) (act : Port → α → State → State × Reply),
      rights p = mayIssue p code ∧ (parse args).isSome = lengthAllowed code args ∧
      ∀ s, exec i s = .next (s.request code rights parse act p args) := by
  cases i <;> cases h
  case unknownRequest => exact absurd rfl known
  case status => exact ⟨_, _, _, _, rfl, parseNone_isSome _, fun _ => rfl⟩
  case events => exact ⟨_, _, _, _, rfl, parseU16_isSome _, fun _ => rfl⟩
  case configGet => exact ⟨_, _, _, _, rfl, parseU8_isSome _, fun _ => rfl⟩
  case configSet => exact ⟨_, _, _, _, rfl, parseConfigSet_isSome _, fun _ => rfl⟩
  case restart => exact ⟨_, _, _, _, rfl, parseU8_isSome _, fun _ => rfl⟩
  case runStart => exact ⟨_, _, _, _, rfl, parseRunStart_isSome _, fun _ => rfl⟩
  case runEnd => exact ⟨_, _, _, _, rfl, parseNone_isSome _, fun _ => rfl⟩
  case zero => exact ⟨_, _, _, _, rfl, parseS32_isSome _, fun _ => rfl⟩
  case setChainage => exact ⟨_, _, _, _, rfl, parseSetChainage_isSome _, fun _ => rfl⟩
  case reelReport => exact ⟨_, _, _, _, rfl, parseU32_isSome _, fun _ => rfl⟩
  case waypointPlace => exact ⟨_, _, _, _, rfl, parsePlace_isSome _, fun _ => rfl⟩
  case waypointClear => exact ⟨_, _, _, _, rfl, parseU8_isSome _, fun _ => rfl⟩
  case waypointRead => exact ⟨_, _, _, _, rfl, parseU8_isSome _, fun _ => rfl⟩
  case claim => exact ⟨_, _, _, _, rfl, parseU16_isSome _, fun _ => rfl⟩
  case still => exact ⟨_, _, _, _, rfl, parseStill_isSome _, fun _ => rfl⟩
  case halt => exact ⟨_, _, _, _, rfl, parseNone_isSome _, fun _ => rfl⟩
  case haltAck => exact ⟨_, _, _, _, rfl, parseNone_isSome _, fun _ => rfl⟩
  case resume => exact ⟨_, _, _, _, rfl, parseNone_isSome _, fun _ => rfl⟩
  case lampMode => exact ⟨_, _, _, _, rfl, parseU8_isSome _, fun _ => rfl⟩
  case lampWeights => exact ⟨_, _, _, _, by cases p <;> rfl, parseWeights_isSome _, fun _ => rfl⟩
  case presetWrite => exact ⟨_, _, _, _, rfl, parsePresetWrite_isSome _, fun _ => rfl⟩
  case presetSelect => exact ⟨_, _, _, _, by cases p <;> rfl, parseU8_isSome _, fun _ => rfl⟩
  case attitude => exact ⟨_, _, _, _, rfl, parseAttitude_isSome _, fun _ => rfl⟩
  case pose => exact ⟨_, _, _, _, rfl, parsePose_isSome _, fun _ => rfl⟩
  case journalNext => exact ⟨_, _, _, _, rfl, parseNone_isSome _, fun _ => rfl⟩
  case journalBulk => exact ⟨_, _, _, _, rfl, parseNone_isSome _, fun _ => rfl⟩
  case journalSeek => exact ⟨_, _, _, _, rfl, parseU32_isSome _, fun _ => rfl⟩
  case journalRewind => exact ⟨_, _, _, _, rfl, parseNone_isSome _, fun _ => rfl⟩
  case journalBind => exact ⟨_, _, _, _, rfl, parseNone_isSome _, fun _ => rfl⟩
  case journalUnbind => exact ⟨_, _, _, _, rfl, parseNone_isSome _, fun _ => rfl⟩
  case journalClear => exact ⟨_, _, _, _, rfl, parseNone_isSome _, fun _ => rfl⟩
  case journalMode => exact ⟨_, _, _, _, rfl, parseU8_isSome _, fun _ => rfl⟩
  case mark => exact ⟨_, _, _, _, by cases p <;> rfl, parseU16_isSome _, fun _ => rfl⟩
  case note => exact ⟨_, _, _, _, rfl, parseNote_isSome _, fun _ => rfl⟩

end Sys2Proof.Machine
end

section
/-! How requests are taken (10.1, 10.4, 10.5): hearing the link, the checks, full queues and slots. -/

namespace Sys2Proof.Machine

/-! ### Latches -/

/-- An event set on the drive and head ports (R165). -/
theorem State.setEvent_drive_head (e : Event) (s : State) :
    (s.setEvent .drive e).setEvent .head e = { s with pi := { s.pi with
      latches := ⟨s.pi.latches.surface, s.pi.latches.drive ||| e.bit, s.pi.latches.head ||| e.bit⟩ } } := rfl

/-- A new state of the halt controller, and the HALT event where DHALT changes its level (R132). -/
theorem State.setHalt_eq (h : HaltController) (s : State) :
    s.setHalt h = { s with
      hc := h
      pi := { s.pi with latches := ⟨s.pi.latches.surface,
        s.pi.latches.drive ||| (if h.dhalt = s.hc.dhalt then 0 else Event.bit .halt), s.pi.latches.head⟩ } } := by
  unfold State.setHalt
  split
  · simp
  · rfl

/-! ### The link (R131, R165) -/

theorem State.hearSurface_eq (s : State) : ∃ drive head : BitVec 9,
    s.hearSurface = { s with
      hc := { s.hc with linkHalt := false }
      pi := { s.pi with
        linkDue := some (s.now + ticksOfMs 2000)
        latches := ⟨s.pi.latches.surface, drive, head⟩ } } ∧
    (s.hc.linkHalt = false → drive = s.pi.latches.drive ∧ head = s.pi.latches.head) ∧
    (s.hc.linkHalt = true →
      drive = s.pi.latches.drive ||| (if s.hc.seq = none then Event.bit .halt else 0) ||| Event.bit .link ∧
      head = s.pi.latches.head ||| Event.bit .link) := by
  cases lost : s.hc.linkHalt with
  | false =>
    have same : ({ s.hc with linkHalt := false } : HaltController) = s.hc := by rw [← lost]
    refine ⟨s.pi.latches.drive, s.pi.latches.head, ?_, fun _ => ⟨rfl, rfl⟩, nofun⟩
    unfold State.hearSurface
    simp only [lost, same]
    rfl
  | true =>
    refine ⟨_, _, ?_, nofun, fun _ => ⟨rfl, rfl⟩⟩
    unfold State.hearSurface
    simp only [lost, if_true, State.setHalt_eq, State.setEvent_drive_head]
    cases s.hc.seq <;> simp [HaltController.dhalt, lost]

/-- Settles O4: hearing is a restored link, where it was lost, and then the timer. -/
theorem hearingRestoresTheLink : Obligations.HearingRestoresTheLink := by
  refine fun s => ⟨⟨rfl, rfl⟩, ?_⟩
  exact State.hearSurface_eq (s.setReceiver .surface .hunt)

theorem State.loseLink_eq (s : State) :
    s.loseLink = { s with
      hc := { s.hc with linkHalt := true }
      pi := { s.pi with
        linkDue := none
        latches := ⟨s.pi.latches.surface,
          s.pi.latches.drive ||| (if s.hc.dhalt then 0 else Event.bit .halt) ||| Event.bit .link,
          s.pi.latches.head ||| Event.bit .link⟩ } } := by
  unfold State.loseLink
  simp only [State.setHalt_eq, State.setEvent_drive_head]
  cases s.hc.dhalt <;> simp [HaltController.dhalt]

/-- A part out of RESET runs what a running part does. -/
theorem State.whenRunning_running {s : State} (f : State → State) (running : s.resetLine = false) :
    s.whenRunning f = f s := by simp [State.whenRunning, running]

/-- Settles O10: the expiry reaches its time, and the link is lost. -/
theorem linkTimeoutSetsLinkHalt : Obligations.LinkTimeoutSetsLinkHalt := by
  intro s running
  have taken : exec .linkTimeout s = .next s.linkExpiry :=
    congrArg Host.Outcome.next (State.whenRunning_running State.linkExpiry running)
  refine ⟨fun stopped => ?_, fun due runs => ⟨(s.reach due).loseLink, ?_, ?_, ?_⟩⟩
  · simp [taken, State.linkExpiry, stopped]
  · simp [taken, State.linkExpiry, runs]
  · rw [State.loseLink_eq]
    simp [State.dhalt, HaltController.dhalt, State.reach, running]
  · exact State.loseLink_eq _

/-! ### The checks (R169) -/

/-- An accepted request with the right and a payload that parses is its act on the heard state. -/
theorem State.request_acts {α : Type} {rights : Port → Bool} {parse : List Byte → Option α}
    {act : Port → α → State → State × Reply} {p : Port} {code : Byte} {args : List Byte} {a : α} {s : State}
    (h : s.accepts p code args) (answers : p = .surface → code ≠ reelReportCode) (right : rights p = true)
    (parsed : parse args = some a) :
    s.request code rights parse act p args = State.answeredWith p code (act p a (s.heard p)) := by
  rw [State.request_accepted rights parse act h answers]
  simp [checkRequest, right, parsed]

/-- A request without the right is refused before anything else of it is looked at. -/
theorem State.request_rights {α : Type} {rights : Port → Bool} {parse : List Byte → Option α}
    {act : Port → α → State → State × Reply} {p : Port} {code : Byte} {args : List Byte} {s : State}
    (h : s.accepts p code args) (answers : p = .surface → code ≠ reelReportCode) (forbidden : rights p = false) :
    s.request code rights parse act p args = (s.heard p).answered p code .rights [] := by
  rw [State.request_accepted rights parse act h answers]
  simp [checkRequest, forbidden, State.answeredWith, bare]

theorem State.request_length {α : Type} {rights : Port → Bool} {parse : List Byte → Option α}
    {act : Port → α → State → State × Reply} {p : Port} {code : Byte} {args : List Byte} {s : State}
    (h : s.accepts p code args) (answers : p = .surface → code ≠ reelReportCode) (right : rights p = true)
    (unparsed : parse args = none) :
    s.request code rights parse act p args = (s.heard p).answered p code .length [] := by
  rw [State.request_accepted rights parse act h answers]
  simp [checkRequest, right, unparsed, State.answeredWith, bare]

/-- A REEL REPORT is taken by its checks and never answered (R170). -/
theorem State.request_reel {α : Type} {rights : Port → Bool} {parse : List Byte → Option α}
    {act : Port → α → State → State × Reply} {args : List Byte} {s : State} (running : s.resetLine = false) :
    s.request reelReportCode rights parse act .surface args =
      (checkRequest rights parse act .surface args (s.heard .surface)).1 := by
  rw [State.request, State.whenRunning_running _ running]
  rfl

/-- Only the surface port may report the reel. -/
theorem mayIssue_reelReport {p : Port} (right : mayIssue p reelReportCode = true) : p = .surface := by
  cases p with
  | surface => rfl
  | drive => cases right
  | head => cases right

/-- Settles O5: the code, then the rights, are looked at before the request's own rule. -/
theorem unknownOrForbiddenRequestChangesNothing : Obligations.UnknownOrForbiddenRequestChangesNothing := by
  refine ⟨fun i p code args s request known forbidden accepted => ?_, fun p code args s unknown accepted => ?_⟩
  · obtain ⟨α, rights, parse, act, right, -, taken⟩ := exec_asRequest request known
    rw [taken, State.request_rights accepted ?_ (right ▸ forbidden)]
    rintro rfl rfl
    cases forbidden
  · have other : p = .surface → code ≠ reelReportCode := by
      rintro - rfl
      exact unknown (by decide)
    calc exec (.unknownRequest p code args) s
        = .next (s.whenRunning fun s => s.deliver code p args refuseUnknown) := rfl
      _ = _ := by rw [State.whenRunning_running _ accepted.1, State.deliver_accepted _ accepted other]; rfl

/-- Settles O6: after the rights, the length decides. -/
theorem wrongLengthIsRefused : Obligations.WrongLengthIsRefused := by
  intro i p code args s request known right wrong accepted
  obtain ⟨α, rights, parse, act, rights_eq, fits, taken⟩ := exec_asRequest request known
  have unparsed : parse args = none := Option.isNone_iff_eq_none.mp (by rw [← Option.not_isSome, fits, wrong]; rfl)
  rw [taken]
  split
  · next reel =>
    cases reel
    cases mayIssue_reelReport right
    have may : rights .surface = true := rights_eq.trans right
    refine congrArg _ ((State.request_reel accepted.1).trans ?_)
    simp [checkRequest, may, unparsed]
  · next other =>
    rw [State.request_length accepted (fun _ => other) (rights_eq ▸ right) unparsed]

end Sys2Proof.Machine
end

section
/-! The surface and bus timers, the event latches and RESET (chapters 10 and 11): O1, O3, O8, O9, O12. -/

namespace Sys2Proof.Machine

/-- Settles O1. -/
theorem stepTakesFrontOfQueue : Obligations.StepTakesFrontOfQueue := fun _ _ _ => rfl

/-! ### Answer slots (R166) -/

/-- Settles O8: the act of acceptance and the read of the slot, state by state. -/
theorem answerSlotFollowsItsTable : Obligations.AnswerSlotFollowsItsTable := by
  refine ⟨fun b code args s running => ?_, fun b s => ⟨fun slot => ?_, fun code args due slot => ?_, fun a slot => ?_⟩⟩
  · have taken : exec (.answerSlotAccept b code args) s = .next (s.acceptRequest b code args) :=
      congrArg Host.Outcome.next (State.whenRunning_running _ running)
    have unslotted : (s.setReceiver b.port .hunt).pi.slot b = s.pi.slot b := by cases b <;> rfl
    rw [taken]
    unfold State.acceptRequest
    simp only [unslotted]
    cases s.pi.slot b <;> rfl
  · simp only [State.slotRead, slot, State.notReady]
  · simp only [State.slotRead, slot, State.notReady]
  · simp only [State.slotRead, slot]

/-! ### STXD (R164) -/

theorem flatMap_serialBits_length (bytes : List Byte) : (bytes.flatMap serialBits).length = 10 * bytes.length := by
  induction bytes with
  | nil => rfl
  | cons b rest ih => simp [ih, serialBits_length]; omega

/-- After the bytes sent before it a byte's own bits stand on the line. -/
theorem serialLevel_append (sent more : List Byte) (b : Byte) {bit : Nat} (inside : bit < 10) :
    serialLevel (sent ++ b :: more) (10 * sent.length + bit) = ((serialBits b)[bit]?).getD true := by
  have before : (sent.flatMap serialBits).length ≤ 10 * sent.length + bit := by
    rw [flatMap_serialBits_length]; omega
  have within : bit < (serialBits b).length := by rw [serialBits_length]; exact inside
  unfold serialLevel
  rw [List.flatMap_append, List.getElem?_append_right before, flatMap_serialBits_length, List.flatMap_cons,
    Nat.add_sub_cancel_left, List.getElem?_append_left within]

theorem serialLevel_after {bytes : List Byte} {bit : Nat} (after : 10 * bytes.length ≤ bit) :
    serialLevel bytes bit = true := by
  unfold serialLevel
  rw [List.getElem?_eq_none (by rw [flatMap_serialBits_length]; exact after)]
  rfl

theorem serialBits_data (b : Byte) (i : Nat) (data : i < 8) : ((serialBits b)[i + 1]?).getD true = b.getLsbD i := by
  interval_cases i <;> rfl

/-- The level of STXD while an answer is being sent. -/
theorem State.stxd_sending {s : State} {a : Answer} {rest : List Answer} (running : s.resetLine = false)
    (queue : s.pi.outQueue = a :: rest) :
    s.stxd = serialLevel a.bytes ((s.now - s.pi.sendStart) * baudRate s.pi.fastBaud / 2000000) := by
  simp [State.stxd, State.sending, running, queue]

theorem State.stxd_rests {s : State} (rests : s.resetLine = true ∨ s.pi.outQueue = []) : s.stxd = true := by
  rcases rests with held | empty
  · simp [State.stxd, State.sending, held]
  · simp [State.stxd, State.sending, empty]

/-- Settles O9: the timers' acts, then STXD bit by bit. -/
theorem surfaceTimersActOnTheirOwnState : Obligations.SurfaceTimersActOnTheirOwnState := by
  refine ⟨fun s running => ?_, fun s a rest sent more b bit running queue bytes _ => ?_,
    fun s => ⟨State.stxd_rests, fun a rest queue past => ?_⟩⟩
  · have gap : exec .surfaceByteGapTimeout s = .next s.byteGap :=
      congrArg Host.Outcome.next (State.whenRunning_running _ running)
    have ends : exec .surfaceAnswerSent s = .next s.answerSent :=
      congrArg Host.Outcome.next (State.whenRunning_running _ running)
    refine ⟨fun p => congrArg Host.Outcome.next (State.whenRunning_running _ running), fun hunting => ?_,
      fun inside => ?_, fun empty => ?_, fun a rest queue => ?_⟩
    · simp [gap, State.byteGap, hunting]
    · simp [gap, State.byteGap, inside, State.reach, State.setReceiver, PortInterface.gapDue, ticksOfMs]
    · simp [ends, State.answerSent, empty]
    · simp [ends, State.answerSent, queue, State.reach, sendTicks, ceilDiv, baudRate]
  · intro baud sofar from_ until_
    have inCourse : (s.now - s.pi.sendStart) * baudRate s.pi.fastBaud / 2000000 = 10 * sent.length + bit := by
      show sofar / 2000000 = _
      omega
    have level (inside : bit < 10) : s.stxd = ((serialBits b)[bit]?).getD true := by
      rw [State.stxd_sending running queue, inCourse, bytes]
      exact serialLevel_append sent more b inside
    refine ⟨?_, ?_, ?_⟩
    · rintro rfl
      exact level (by decide)
    · rintro i data rfl
      rw [level (by omega)]
      exact serialBits_data b i data
    · rintro rfl
      rw [level (by decide)]
      rfl
  · by_cases held : s.resetLine = true
    · exact State.stxd_rests (.inl held)
    · rw [State.stxd_sending (Bool.not_eq_true _ ▸ held) queue]
      refine serialLevel_after ?_
      rw [Nat.le_div_iff_mul_le (by decide)]
      exact past

/-! ### Latches (R173 to R175) -/

/-- A word ANDed with another is 0 exactly when no bit stands in both. -/
theorem and_ne_zero_iff (x y : BitVec 9) :
    ((x &&& y) != 0) = true ↔ ∃ i : Fin 9, x.getLsbD i = true ∧ y.getLsbD i = true := by
  rw [bne_iff_ne, ne_eq, BitVec.eq_of_getLsbD_eq_iff, not_forall]
  constructor
  · rintro ⟨i, shown⟩
    rw [BitVec.getLsbD_and, not_forall] at shown
    obtain ⟨inside, both⟩ := shown
    exact ⟨⟨i, inside⟩, by simpa using both⟩
  · rintro ⟨i, left, right⟩
    exact ⟨i, by simp [left, right]⟩

/-- The byte of a mark at bit 2. -/
theorem markTwo_bit : ∀ (b : Bool) (i : Fin 8),
    (if b then (0x04 : Byte) else 0x00).getLsbD i = (decide (i = 2) && b) := by decide

/-- HALT and LINK share bit 2 of the summary byte (R174). -/
theorem summaryByte_bit (latch mask : BitVec 9) (i : Fin 8) :
    (summaryByte latch mask).getLsbD i =
      if i = 2 then (latch.getLsbD 2 && mask.getLsbD 2) || (latch.getLsbD 8 && mask.getLsbD 8)
      else latch.getLsbD i && mask.getLsbD i := by
  unfold summaryByte
  simp only [BitVec.getLsbD_or, markTwo_bit, BitVec.truncate_eq_setWidth, BitVec.getLsbD_setWidth,
    BitVec.getLsbD_and, i.isLt, decide_true, Bool.true_and]
  by_cases shared : i = 2
  · subst shared
    simp
  · simp [shared]

/-- An emptied latch shows nothing. -/
theorem summaryByte_zero (mask : BitVec 9) : summaryByte 0 mask = 0 := by simp [summaryByte]

/-- Settles O12: the act of EVENTS, and the three places at which a latch shows. -/
theorem eventsCollectsTheLatch : Obligations.EventsCollectsTheLatch := by
  refine ⟨fun p b0 b1 s accepted => ⟨(actEvents p (half b0 b1) (s.heard p)).1, ?_, ?_, ?_, ?_, rfl⟩,
    fun s => ⟨?_, ?_, fun p i => summaryByte_bit _ _ i⟩, by decide⟩
  · exact congrArg Host.Outcome.next (State.request_acts accepted (fun _ => by decide) rfl rfl)
  · simp only [State.summary, actEvents, PerPort.get_set_same, summaryByte_zero]
  · rintro rfl
    simp [State.datn, actEvents, PerPort.set]
  · rintro rfl
    simp [State.hatn, actEvents, PerPort.set]
  · simp only [State.datn, Bool.and_eq_true, Bool.not_eq_true', and_ne_zero_iff]
  · simp only [State.hatn, Bool.and_eq_true, Bool.not_eq_true', and_ne_zero_iff]

/-! ### RESET (R182) -/

/-- Every command but RESET is what a running part does, or nothing. -/
theorem exec_whenRunning {i : Instr} (assert : i ≠ .resetAssert) (release : i ≠ .resetRelease) :
    ∃ f : State → State, ∀ s, exec i s = .next (s.whenRunning f) := by
  cases i with
  | resetAssert => exact absurd rfl assert
  | resetRelease => exact absurd rfl release
  | _ => exact ⟨_, fun _ => rfl⟩

/-- Settles O3. -/
theorem resetHoldsThePartAndReleaseGivesPowerOnValues :
    Obligations.ResetHoldsThePartAndReleaseGivesPowerOnValues := by
  refine ⟨fun s => ⟨rfl, rfl⟩, fun i s held assert release => ?_⟩
  obtain ⟨f, taken⟩ := exec_whenRunning assert release
  refine ⟨?_, ?_, ?_, ?_, ?_, ?_, State.stxd_rests (.inl held)⟩
  · simp [taken, State.whenRunning, held]
  · simp [State.dhalt, held]
  · simp [State.datn, held]
  · simp [State.hatn, held]
  · simp [State.xp, held]
  · simp [State.ovl, held]

/-! ### The state after reset -/

theorem FrameSequencer.powerOn_sound : FrameSequencer.powerOn.sound := by
  simp [FrameSequencer.sound, FrameSequencer.powerOn, consecutive]

/-- Settles O59. -/
theorem theInvariantsHoldAtReset : Obligations.TheInvariantsHoldAtReset := by
  have position := State.powerOn_position .atRest
  exact ⟨State.powerOn_budget _, position.1, position.2.1, position.2.2, Settings.default_inRange,
    Journal.powerOn_sound, clear_placed (.powerOn .atRest), ⟨by decide, by decide, by decide⟩,
    FrameSequencer.powerOn_sound, nofun⟩

end Sys2Proof.Machine
end

section
/-! States put together from their fields, and the bytes of numbers (4.6). -/

namespace Sys2Proof.Machine

/-- Two states that agree in every field are one. -/
theorem State.eq_of_fields {t s : State} (now : t.now = s.now := by simp)
    (resetLine : t.resetLine = s.resetLine := by simp) (pins : t.pins = s.pins := by simp)
    (cfg : t.cfg = s.cfg := by simp) (cu : t.cu = s.cu := by simp) (wt : t.wt = s.wt := by simp)
    (ca : t.ca = s.ca := by simp) (fs : t.fs = s.fs := by simp) (ld : t.ld = s.ld := by simp)
    (sq : t.sq = s.sq := by simp) (hc : t.hc = s.hc := by simp) (jn : t.jn = s.jn := by simp)
    (pi : t.pi = s.pi := by simp) (li : t.li = s.li := by simp) (sp : t.sp = s.sp := by simp)
    (inputs : t.inputs = s.inputs := by simp) (pending : t.pending = s.pending := by simp) : t = s := by
  cases t
  cases s
  simp_all

/-- What may have been journaled leaves the journal's mode, cursors and binding. -/
theorem OnlyRecords.jn_eq {t s : State} (h : OnlyRecords t s) :
    t.jn = { s.jn with
      store := t.jn.store, next := t.jn.next, dropCount := t.jn.dropCount, firstDrop := t.jn.firstDrop } := by
  obtain ⟨mode, cursors, bound⟩ := h
  dsimp only
  rw [← mode, ← cursors, ← bound]

theorem OnlyLatches.pi_eq {t s : State} (h : OnlyLatches t s) :
    t.pi = { s.pi with latches := t.pi.latches } := by
  obtain ⟨receivers, lastByte, outQueue, sendStart, driveSlot, headSlot, masks, linkDue, fastBaud, headAddress,
    spi, i2c⟩ := h
  dsimp only
  rw [← receivers, ← lastByte, ← outQueue, ← sendStart, ← driveSlot, ← headSlot, ← masks, ← linkDue, ← fastBaud,
    ← headAddress, ← spi, ← i2c]

theorem OnlyDwell.ld_eq {t s : State} (h : OnlyDwell t s) :
    t.ld = { s.ld with standstill := t.ld.standstill, dwell := t.ld.dwell } := by
  obtain ⟨writtenMode, mode, pendingWeights, weights, presets, channelMax, pendingLevels, activeLevels,
    pendingPairs, activePairs, pwmStart, outputs, hold⟩ := h
  dsimp only
  rw [← writtenMode, ← mode, ← pendingWeights, ← weights, ← presets, ← channelMax, ← pendingLevels,
    ← activeLevels, ← pendingPairs, ← activePairs, ← pwmStart, ← outputs, ← hold]

/-! ### Little-endian bytes -/

theorem half_toNat (b0 b1 : Byte) : (half b0 b1).toNat = 256 * b1.toNat + b0.toNat := by
  unfold half
  rw [BitVec.toNat_append, ← Nat.shiftLeft_add_eq_or_of_lt b0.isLt, Nat.shiftLeft_eq]
  omega

theorem word_toNat (b0 b1 b2 b3 : Byte) :
    (word b0 b1 b2 b3).toNat = 16777216 * b3.toNat + 65536 * b2.toNat + 256 * b1.toNat + b0.toNat := by
  unfold word
  rw [BitVec.toNat_append, ← Nat.shiftLeft_add_eq_or_of_lt b0.isLt, BitVec.toNat_append,
    ← Nat.shiftLeft_add_eq_or_of_lt b1.isLt, BitVec.toNat_append, ← Nat.shiftLeft_add_eq_or_of_lt b2.isLt]
  simp only [Nat.shiftLeft_eq]
  omega

theorem le16_half (b0 b1 : Byte) : le16 (half b0 b1) = [b0, b1] := by
  have := b0.isLt
  have := b1.isLt
  simp only [le16, List.cons.injEq, and_true]
  constructor <;>
    · apply BitVec.eq_of_toNat_eq
      rw [BitVec.extractLsb'_toNat, half_toNat, Nat.shiftRight_eq_div_pow]
      omega

theorem le32_word (b0 b1 b2 b3 : Byte) : le32 (word b0 b1 b2 b3) = [b0, b1, b2, b3] := by
  have := b0.isLt
  have := b1.isLt
  have := b2.isLt
  have := b3.isLt
  simp only [le32, List.cons.injEq, and_true]
  refine ⟨?_, ?_, ?_, ?_⟩ <;>
    · apply BitVec.eq_of_toNat_eq
      rw [BitVec.extractLsb'_toNat, word_toNat, Nat.shiftRight_eq_div_pow]
      omega

theorem s32_word (b0 b1 b2 b3 : Byte) : s32 (word b0 b1 b2 b3).toInt = [b0, b1, b2, b3] := by
  rw [s32, BitVec.ofInt_toInt, le32_word]

end Sys2Proof.Machine
end

section
/-! Parameters by their name codes (10.8, R176, R177): what a write writes, and what it leaves. -/

namespace Sys2Proof.Machine

theorem SourceMode.ofCode_eq_some {v : Int} {m : SourceMode} (h : SourceMode.ofCode v = some m) : m.code = v := by
  unfold SourceMode.ofCode at h
  split at h <;> cases h <;> rfl

theorem LineFunction.ofCode_eq_some {v : Int} {f : LineFunction} (h : LineFunction.ofCode v = some f) :
    f.code = v := by
  unfold LineFunction.ofCode at h
  split at h <;> cases h <;> rfl

theorem Polarity.ofCode_eq_some {v : Int} {q : Polarity} (h : Polarity.ofCode v = some q) : q.code = v := by
  unfold Polarity.ofCode at h
  split at h <;> cases h <;> rfl

theorem SourceMode.ofCode_isSome (v : Int) : (SourceMode.ofCode v).isSome = true ↔ 0 ≤ v ∧ v ≤ 2 := by
  constructor
  · intro known
    obtain ⟨x, coded⟩ := Option.isSome_iff_exists.mp known
    rw [← SourceMode.ofCode_eq_some coded]
    cases x <;> decide
  · rintro ⟨low, high⟩
    interval_cases v <;> rfl

theorem LineFunction.ofCode_isSome (v : Int) : (LineFunction.ofCode v).isSome = true ↔ 0 ≤ v ∧ v ≤ 4 := by
  constructor
  · intro known
    obtain ⟨x, coded⟩ := Option.isSome_iff_exists.mp known
    rw [← LineFunction.ofCode_eq_some coded]
    cases x <;> decide
  · rintro ⟨low, high⟩
    interval_cases v <;> rfl

theorem Polarity.ofCode_isSome (v : Int) : (Polarity.ofCode v).isSome = true ↔ 0 ≤ v ∧ v ≤ 1 := by
  constructor
  · intro known
    obtain ⟨x, coded⟩ := Option.isSome_iff_exists.mp known
    rw [← Polarity.ofCode_eq_some coded]
    cases x <;> decide
  · rintro ⟨low, high⟩
    interval_cases v <;> rfl

theorem rangedNat_isSome {lo hi v : Int} {write : Nat → Settings} :
    (rangedNat lo hi v write).isSome = true ↔ lo ≤ v ∧ v ≤ hi := by
  unfold rangedNat
  split <;> simp_all

/-! ### Names -/

/-- A name code of a line's parameter is 20H, 24H or 28H and the line's number. -/
theorem lineName_eq_some {code kind : Nat} {n : Fin 4} (h : lineName code = some (kind, n)) :
    code = 0x20 + 4 * kind + n.val ∧ kind < 3 := by
  unfold lineName fin4? at h
  split at h
  · next range =>
    have small : code % 4 < 4 := Nat.mod_lt _ (by decide)
    rw [dif_pos small] at h
    cases h
    dsimp only
    omega
  · cases h

/-- Any other code names no line's parameter. -/
theorem lineName_eq_none {code : Nat} (h : lineName code = none) : code < 0x20 ∨ 0x2C ≤ code := by
  by_contra range
  have small : code % 4 < 4 := Nat.mod_lt _ (by decide)
  have named : 0x20 ≤ code ∧ code < 0x2C := by omega
  simp [lineName, fin4?, named, small] at h

theorem parameter_line {kind : Nat} (n : Fin 4) (c : Settings) (h : kind < 3) :
    parameter (0x20 + 4 * kind + n.val) c = some ((c.lines.get n).value kind) := by
  interval_cases kind <;> fin_cases n <;> rfl

theorem parameterRange_line {kind : Nat} (n : Fin 4) (c : Settings) (h : kind < 3) :
    parameterRange c (0x20 + 4 * kind + n.val) = some (if kind = 0 then (0, 4) else if kind = 1 then (0, 1) else (1, 255)) := by
  interval_cases kind <;> fin_cases n <;> rfl

theorem parameter_unnamed {code : Nat} (c : Settings) (h : 0x2C ≤ code) : parameter code c = none := by
  unfold parameter
  split
  case h_39 => rfl
  all_goals omega

/-- Outside the codes of the lines a parameter is one of the first 26. -/
theorem parameter_named {code : Nat} (c : Settings) (h : lineName code = none) :
    parameter code c = c.valueNamed code := by
  rcases lineName_eq_none h with low | high
  · interval_cases code <;> rfl
  · rw [parameter_unnamed c high]
    unfold Settings.valueNamed
    split
    case h_27 => rfl
    all_goals omega

/-- CONFIG GET's table is that of 10.8 (R177). -/
theorem Settings.value_eq_parameter (code : Nat) (c : Settings) : c.value code = parameter code c := by
  unfold Settings.value
  cases name : lineName code with
  | none => exact (parameter_named c name).symm
  | some named =>
    obtain ⟨kind, n⟩ := named
    obtain ⟨rfl, inside⟩ := lineName_eq_some name
    exact (parameter_line n c inside).symm

/-- The read-only items in the order of their codes (12.2). -/
theorem State.readOnlyItem_eq (code : Nat) (s : State) : s.readOnlyItem code = readOnly code s := by
  by_cases named : 0x30 ≤ code ∧ code ≤ 0x39
  · obtain ⟨low, high⟩ := named
    interval_cases code <;> rfl
  · have unnamed : readOnly code s = none := by
      unfold readOnly
      rw [if_neg (by omega), if_neg (by omega), if_neg (by omega), if_neg (by omega)]
    rw [unnamed]
    unfold State.readOnlyItem
    split
    case h_11 => rfl
    all_goals omega

/-! ### Ranges -/

theorem LineSetting.put_isSome {kind : Nat} {v : Int} {l : LineSetting} (h : kind < 3) :
    (l.put kind v).isSome = true ↔
      (if kind = 0 then 0 ≤ v ∧ v ≤ 4 else if kind = 1 then 0 ≤ v ∧ v ≤ 1 else 1 ≤ v ∧ v ≤ 255) := by
  interval_cases kind
  · simp [LineSetting.put, LineFunction.ofCode_isSome]
  · simp [LineSetting.put, Polarity.ofCode_isSome]
  · simp [LineSetting.put]

/-- Within a named parameter's range, and nowhere else, the value is written (R176). -/
theorem Settings.putNamed_isSome {code : Nat} {v lo hi : Int} {c : Settings} (name : lineName code = none)
    (range : parameterRange c code = some (lo, hi)) : (c.putNamed code v).isSome = true ↔ lo ≤ v ∧ v ≤ hi := by
  rcases lineName_eq_none name with low | high
  · interval_cases code <;> cases range
    all_goals simp only [Settings.putNamed]
    all_goals first
      | exact rangedNat_isSome
      | exact Option.isSome_map.symm ▸ SourceMode.ofCode_isSome v
      | exact Option.isSome_ite
  · unfold parameterRange at range
    split at range
    case h_39 => cases range
    all_goals omega

theorem Settings.put_isSome {code : Nat} {v lo hi : Int} {c : Settings}
    (range : parameterRange c code = some (lo, hi)) : (c.put code v).isSome = true ↔ lo ≤ v ∧ v ≤ hi := by
  unfold Settings.put
  cases name : lineName code with
  | none => exact Settings.putNamed_isSome name range
  | some named =>
    obtain ⟨kind, n⟩ := named
    obtain ⟨rfl, inside⟩ := lineName_eq_some name
    rw [parameterRange_line n c inside, Option.some.injEq] at range
    simp only [Option.isSome_map, LineSetting.put_isSome inside]
    interval_cases kind <;> cases range <;> rfl

/-- A name that has no range is written by nothing (R176). -/
theorem Settings.put_unnamed {code : Nat} {v : Int} {c : Settings} (range : parameterRange c code = none) :
    c.put code v = none := by
  unfold Settings.put
  cases name : lineName code with
  | none =>
    rcases lineName_eq_none name with low | high
    · interval_cases code <;> first | rfl | cases range
    · show c.putNamed code v = none
      unfold Settings.putNamed
      split
      case h_27 => rfl
      all_goals omega
  | some named =>
    obtain ⟨kind, n⟩ := named
    obtain ⟨rfl, inside⟩ := lineName_eq_some name
    rw [parameterRange_line n c inside] at range
    cases range

/-! ### Writes -/

theorem LineSetting.put_value {kind : Nat} {v : Int} {l l' : LineSetting} (put : l.put kind v = some l') :
    l'.value kind = v := by
  unfold LineSetting.put at put
  split at put
  · obtain ⟨f, coded, rfl⟩ := Option.map_eq_some_iff.mp put
    exact LineFunction.ofCode_eq_some coded
  · obtain ⟨q, coded, rfl⟩ := Option.map_eq_some_iff.mp put
    exact Polarity.ofCode_eq_some coded
  · next function polarity =>
    split at put
    · next range =>
      cases put
      unfold LineSetting.value
      split
      · exact absurd rfl function
      · exact absurd rfl polarity
      · exact Int.toNat_of_nonneg (by omega)
    · cases put

/-- A line's other parameters stay. -/
theorem LineSetting.put_value_other {kind other : Nat} {v : Int} {l l' : LineSetting} (h : kind < 3)
    (inside : other < 3) (different : other ≠ kind) (put : l.put kind v = some l') :
    l'.value other = l.value other := by
  interval_cases kind
  · obtain ⟨f, -, rfl⟩ := Option.map_eq_some_iff.mp put
    interval_cases other <;> first | rfl | exact absurd rfl different
  · obtain ⟨q, -, rfl⟩ := Option.map_eq_some_iff.mp put
    interval_cases other <;> first | rfl | exact absurd rfl different
  · simp only [LineSetting.put, Option.ite_none_right_eq_some] at put
    obtain ⟨-, written⟩ := put
    cases written
    interval_cases other <;> first | rfl | exact absurd rfl different

/-- The parameter that CONFIG SET has written holds the value (R176). -/
theorem Settings.put_parameter {code : Nat} {v : Int} {c c' : Settings} (put : c.put code v = some c') :
    parameter code c' = some v := by
  unfold Settings.put at put
  split at put
  · next kind n name =>
    obtain ⟨l, written, rfl⟩ := Option.map_eq_some_iff.mp put
    obtain ⟨rfl, inside⟩ := lineName_eq_some name
    rw [parameter_line n _ inside, Four.get_set_same, LineSetting.put_value written]
  · unfold Settings.putNamed at put
    split at put
    case h_9 =>
      obtain ⟨m, coded, rfl⟩ := Option.map_eq_some_iff.mp put
      exact congrArg some (SourceMode.ofCode_eq_some coded)
    case h_10 =>
      split at put
      · cases put; rfl
      · cases put
    case h_27 => cases put
    all_goals
      obtain ⟨range, rfl⟩ := rangedNat_eq_some.mp put
      exact congrArg some (Int.toNat_of_nonneg (by omega))

/-- The parameter that a write lowers with the one it names (R100), and the value it is lowered to. -/
def lowered (c : Settings) (code : Nat) (v : Int) (other : Nat) : Option Int :=
  if code = 0x0E ∧ other = 0x0F then some (min (c.userExposure : Int) (v - 2000))
  else if code = 0x12 ∧ other = 0x15 then some (min (c.dwellLevel : Int) v)
  else parameter other c

theorem lowered_other {c : Settings} {code : Nat} {v : Int} {other : Nat} (period : ¬ (code = 0x0E ∧ other = 0x0F))
    (level : ¬ (code = 0x12 ∧ other = 0x15)) : lowered c code v other = parameter other c := by
  simp only [lowered, if_neg period, if_neg level]

/-- A named parameter's write leaves every other parameter, but for the dependent one (R100, R176). -/
theorem Settings.putNamed_other {code other : Nat} {v : Int} {c c' : Settings} (different : other ≠ code)
    (put : c.putNamed code v = some c') : parameter other c' = lowered c code v other := by
  rcases Nat.lt_or_ge other 0x2C with low | high
  · unfold Settings.putNamed at put
    split at put
    case h_9 =>
      obtain ⟨m, -, rfl⟩ := Option.map_eq_some_iff.mp put
      interval_cases other <;> first | rfl | exact absurd rfl different
    case h_10 =>
      split at put
      · cases put
        interval_cases other <;> first | rfl | exact absurd rfl different
      · cases put
    case h_14 =>
      obtain ⟨range, rfl⟩ := rangedNat_eq_some.mp put
      have written : parameter 0x0F (c.putFramePeriod v.toNat) = lowered c 0x0E v 0x0F := by
        refine congrArg some ?_
        simp only [Settings.putFramePeriod, readoutGuard]
        omega
      interval_cases other <;> first | rfl | exact written | exact absurd rfl different
    case h_18 =>
      obtain ⟨range, rfl⟩ := rangedNat_eq_some.mp put
      have written : parameter 0x15 (c.putDMax v.toNat) = lowered c 0x12 v 0x15 := by
        refine congrArg some ?_
        simp only [Settings.putDMax]
        omega
      interval_cases other <;> first | rfl | exact written | exact absurd rfl different
    case h_27 => cases put
    all_goals
      obtain ⟨-, rfl⟩ := rangedNat_eq_some.mp put
      interval_cases other <;> first | rfl | exact absurd rfl different
  · rw [lowered_other (by omega) (by omega), parameter_unnamed _ high, parameter_unnamed _ high]

/-- A write leaves every other parameter, but for the dependent one (R100, R176). -/
theorem Settings.put_other {code other : Nat} {v : Int} {c c' : Settings} (different : other ≠ code)
    (put : c.put code v = some c') : parameter other c' = lowered c code v other := by
  unfold Settings.put at put
  split at put
  · next kind n name =>
    obtain ⟨l, written, rfl⟩ := Option.map_eq_some_iff.mp put
    obtain ⟨rfl, inside⟩ := lineName_eq_some name
    rw [lowered_other (by omega) (by omega)]
    cases named : lineName other with
    | none => rw [parameter_named _ named, parameter_named _ named]; rfl
    | some pair =>
      obtain ⟨kind', m⟩ := pair
      obtain ⟨rfl, inside'⟩ := lineName_eq_some named
      rw [parameter_line m _ inside', parameter_line m _ inside']
      by_cases same : n = m
      · subst same
        rw [Four.get_set_same, LineSetting.put_value_other inside inside' (by omega) written]
      · rw [Four.get_set_other _ _ same]
  · exact Settings.putNamed_other different put

/-! ### CONFIG GET and CONFIG SET taken -/

/-- Settles O13. -/
theorem configGetReadsTheWrittenValue : Obligations.ConfigGetReadsTheWrittenValue := by
  intro p name s accepted
  have taken : exec (.configGet p [name]) s =
      .next (State.answeredWith p 0x03 (actConfigGet p name (s.heard p))) :=
    congrArg Host.Outcome.next (State.request_acts accepted (fun _ => by decide) rfl rfl)
  have cfg : (s.heard p).cfg = s.cfg := by simp
  have items : readOnly name.toNat (s.heard p) = readOnly name.toNat s := by simp [readOnly]
  rw [taken]
  unfold actConfigGet
  rw [Settings.value_eq_parameter, State.readOnlyItem_eq, cfg, items]
  cases parameter name.toNat s.cfg with
  | some v => rfl
  | none => cases readOnly name.toNat s <;> rfl

theorem exec_configSet_accepted {name b0 b1 b2 b3 : Byte} {s : State}
    (h : s.accepts .surface 0x04 [name, b0, b1, b2, b3]) :
    exec (.configSet .surface [name, b0, b1, b2, b3]) s =
      .next (State.answeredWith .surface 0x04
        (actConfigSet .surface (name, (word b0 b1 b2 b3).toInt) (s.heard .surface))) :=
  congrArg Host.Outcome.next (State.request_acts h (fun _ => by decide) rfl rfl)

/-- A value outside the range of its name, or of a name without one, is refused (R176). -/
theorem actConfigSet_range {p : Port} {name : Byte} {v : Int} {s : State}
    (out : ∀ lo hi, parameterRange s.cfg name.toNat = some (lo, hi) → v < lo ∨ hi < v) :
    actConfigSet p (name, v) s = (s, bare .range) := by
  have unwritten : s.cfg.put name.toNat v = none := by
    cases range : parameterRange s.cfg name.toNat with
    | none => exact Settings.put_unnamed range
    | some bounds =>
      obtain ⟨lo, hi⟩ := bounds
      rw [← Option.not_isSome_iff_eq_none, Settings.put_isSome range]
      have := out lo hi range
      omega
  simp [actConfigSet, unwritten]

/-- A budget parameter's write within its range is judged by the grants in force, and then serves (R70). -/
theorem actConfigSet_budget_cases {p : Port} {name : Byte} {v : Int} {cfg : Settings} {s : State}
    (put : s.cfg.put name.toNat v = some cfg) (budget : name.toNat = 0x0B ∨ name.toNat = 0x0C) :
    actConfigSet p (name, v) s =
      if s.ca.granted + max s.ca.commit cfg.lampFloor ≤ cfg.tetherAllowance then
        (State.serve { s with cfg := cfg }, ⟨.ok, name :: s32 v⟩)
      else (s, bare .conflict) := by
  unfold actConfigSet
  dsimp only
  rw [put]
  rcases budget with code | code <;>
  · simp only [code]
    by_cases fits : s.ca.granted + max s.ca.commit cfg.lampFloor ≤ cfg.tetherAllowance
    · simp [namesBudget, budgetFits, fits, State.actOnSetting]
    · simp [namesBudget, budgetFits, fits]

/-- Settles O14. -/
theorem configSetRefusesRangeAndConflict : Obligations.ConfigSetRefusesRangeAndConflict := by
  refine ⟨fun name b0 b1 b2 b3 s accepted out => ?_,
    fun b0 b1 b2 b3 name v a f s accepted value named => ?_⟩
  · have cfg : (s.heard .surface).cfg = s.cfg := by simp
    rw [exec_configSet_accepted accepted, actConfigSet_range (by rw [cfg]; exact out)]
    rfl
  · have cfg : (s.heard .surface).cfg = s.cfg := by simp
    have ca : (s.heard .surface).ca = s.ca := by simp
    have written : name.toNat = 0x0B ∨ name.toNat = 0x0C := by
      rcases named with ⟨rfl, -⟩ | ⟨rfl, -⟩
      · exact .inl rfl
      · exact .inr rfl
    have put : (s.heard .surface).cfg.put name.toNat v = some { s.cfg with tetherAllowance := a, lampFloor := f } := by
      rw [cfg]
      rcases named with ⟨rfl, low, high, rfl, rfl⟩ | ⟨rfl, high, rfl, rfl⟩
      · show rangedNat 100 5000 a (fun n => { s.cfg with tetherAllowance := n }) = _
        exact rangedNat_eq_some.mpr ⟨by omega, rfl⟩
      · show rangedNat 0 1000 f (fun n => { s.cfg with lampFloor := n }) = _
        exact rangedNat_eq_some.mpr ⟨by omega, rfl⟩
    have taken := actConfigSet_budget_cases (p := .surface) put written
    rw [exec_configSet_accepted accepted, value, taken, ← value, s32_word]
    refine ⟨fun breaks => ?_, fun fits => ?_⟩
    · rw [if_neg (by rw [ca]; dsimp only; omega)]
      rfl
    · rw [if_pos (by rw [ca]; exact fits)]
      rfl

end Sys2Proof.Machine
end

section
/-! What a written setting does at once (R18, R115, R176, R181), and CONFIG SET of the other parameters. -/

namespace Sys2Proof.Machine

/-- A candidate judged against a width measured in the units of its age. -/
def judged (width : Int) (c : Option Candidate) : Option Candidate :=
  c.map fun c => { c with ripe := c.ripe && decide (width ≤ c.age) }

theorem rejudge_eq_judged (width : Nat) (c : Option Candidate) : rejudge width c = judged width c := by
  cases c with
  | none => rfl
  | some c => simp [judged]

/-- Of the acts, only the silence limit's hands a record or sets an event. -/
theorem State.actOnSetting_jn_pi {code : Nat} (s : State) (other : code ≠ 0x07) (allowance : code ≠ 0x0B)
    (floor : code ≠ 0x0C) :
    (s.actOnSetting code).jn = s.jn ∧ (s.actOnSetting code).pi = s.pi ∧ (s.actOnSetting code).ca = s.ca := by
  unfold State.actOnSetting
  split
  case h_1 => exact absurd rfl other
  case h_4 => exact absurd rfl allowance
  case h_5 => exact absurd rfl floor
  all_goals simp

theorem State.actOnSetting_ca {code : Nat} (s : State) (allowance : code ≠ 0x0B) (floor : code ≠ 0x0C) :
    (s.actOnSetting code).ca = s.ca := by
  by_cases silence : code = 0x07
  · subst silence
    simp only [State.actOnSetting]
    split <;> simp
  · exact (State.actOnSetting_jn_pi s silence allowance floor).2.2

/-- The chainage unit takes part at four names (R1, R15, R18). -/
theorem State.actOnSetting_cu {code : Nat} (s : State) (silence : code ≠ 0x07) (glitch : code ≠ 0x08)
    (mode : code ≠ 0x09) : (s.actOnSetting code).cu = s.cu := by
  unfold State.actOnSetting
  split
  case h_1 => exact absurd rfl silence
  case h_2 => exact absurd rfl glitch
  case h_3 => exact absurd rfl mode
  all_goals simp

theorem State.rejudgeLine_other {m n : Fin 4} (other : m ≠ n) (s : State) :
    (s.rejudgeLine m).li.cands.get n = s.li.cands.get n := by
  rw [State.rejudgeLine_cands, Four.get_set_other _ _ other]

/-- A line's running candidate is judged again at its own width's name (R181). -/
theorem State.actOnSetting_cands (code : Nat) (s : State) (n : Fin 4) :
    (s.actOnSetting code).li.cands.get n =
      if code = 0x28 + n.val then rejudge (s.cfg.lineWidth n) (s.li.cands.get n) else s.li.cands.get n := by
  by_cases named : code = 0x28 + n.val
  · have acts : s.actOnSetting code = s.rejudgeLine n := by
      subst named
      fin_cases n <;> rfl
    rw [if_pos named, acts, State.rejudgeLine_cands, Four.get_set_same]
  · have line (m : Fin 4) (at_ : code = 0x28 + m.val) : (s.rejudgeLine m).li.cands.get n = s.li.cands.get n :=
      State.rejudgeLine_other (fun same => named (by rw [← same]; exact at_)) s
    rw [if_neg named]
    unfold State.actOnSetting
    split
    case h_7 => exact line 0 rfl
    case h_8 => exact line 1 rfl
    case h_9 => exact line 2 rfl
    case h_10 => exact line 3 rfl
    case h_11 => rfl
    case h_1 => split <;> simp
    all_goals simp

/-- The dwell state after a dwell time has been written (R115). -/
theorem State.dwellTimeWritten_dwell (s : State) :
    s.dwellTimeWritten.ld.dwell =
      if s.ld.dwell then decide (s.cfg.dwellTime ≠ 0)
      else decide (s.cfg.dwellTime ≠ 0) && s.sq.isEmpty &&
        s.ld.standstill.any fun start => decide (s.cfg.dwellTime ≤ (s.now - start) / 2000) := by
  unfold State.dwellTimeWritten State.dwellReached State.standstillMs msOfTicks
  cases dwell : s.ld.dwell with
  | true =>
    by_cases off : s.cfg.dwellTime = 0
    · simp [off]
    · simp [off, dwell]
  | false =>
    cases still : s.ld.standstill with
    | none => simp [dwell]
    | some start =>
      simp only [Option.isSome_some, Option.any_some, Bool.and_true, Bool.false_eq_true, if_false]
      split
      · next reached => simp at reached ⊢; tauto
      · next short =>
        simp [dwell] at short ⊢
        exact fun on empty => Nat.lt_of_not_le fun reached => short on reached empty

/-- Writing the dwell time leaves the standstill time. -/
theorem State.dwellTimeWritten_standstill (s : State) : s.dwellTimeWritten.ld.standstill = s.ld.standstill := by
  unfold State.dwellTimeWritten
  (repeat' split) <;> rfl

/-- Only the dwell time's write touches the lamp driver (R115). -/
theorem State.actOnSetting_ld {code : Nat} (s : State) (other : code ≠ 0x18) :
    (s.actOnSetting code).ld = s.ld := by
  unfold State.actOnSetting
  split
  case h_6 => exact absurd rfl other
  case h_1 => split <;> simp
  all_goals simp

/-- The act whole, for every name but the budget's two. -/
theorem State.actOnSetting_eq {code : Nat} (s : State) (allowance : code ≠ 0x0B) (floor : code ≠ 0x0C) :
    let t := s.actOnSetting code
    t = { s with
      cu := t.cu
      ld := { s.ld with dwell := if code = 0x18 then s.dwellTimeWritten.ld.dwell else s.ld.dwell }
      jn := { s.jn with
        store := t.jn.store, next := t.jn.next, dropCount := t.jn.dropCount, firstDrop := t.jn.firstDrop }
      pi := { s.pi with latches := t.pi.latches }
      li := t.li } := by
  have ca := State.actOnSetting_ca s allowance floor
  have jn := OnlyRecords.jn_eq (t := s.actOnSetting code) (s := s) (by simp)
  have pi := OnlyLatches.pi_eq (t := s.actOnSetting code) (s := s) (by simp)
  have ld : (s.actOnSetting code).ld =
      { s.ld with dwell := if code = 0x18 then s.dwellTimeWritten.ld.dwell else s.ld.dwell } := by
    by_cases dwell : code = 0x18
    · subst dwell
      have only := OnlyDwell.ld_eq (t := s.dwellTimeWritten) (s := s) (by simp)
      rw [State.dwellTimeWritten_standstill] at only
      exact only
    · rw [State.actOnSetting_ld s dwell, if_neg dwell]
  exact State.eq_of_fields (ca := ca) (jn := jn) (pi := pi) (ld := ld)

/-- The silence limit's write loses the cable when the time measured is at or past it (R18). -/
theorem State.actOnSetting_silence (s : State) :
    s.actOnSetting 0x07 = if s.silenceReached then s.loseCable else s := rfl

theorem State.silenceReached_eq (s : State) :
    s.silenceReached = s.cu.silenceStart.any fun start => decide (2000 * s.cfg.reelSilenceLimit ≤ s.now - start) := by
  unfold State.silenceReached
  cases s.cu.silenceStart <;> rfl

theorem State.loseCable_cu (s : State) :
    s.loseCable.cu = { s.cu with
      cableLost := true, silenceStart := none
      trusted := trustedTrack s.cfg.sourceMode s.cu.agreement s.cu.wheelFault true } := by
  simp [State.loseCable, State.chooseTrust]

/-- CABLE_LOST set: its record is made in the state that has the new flags and track (R8, R14). -/
theorem State.loseCable_eq (s : State) :
    s.loseCable = ((({ s with cu := s.loseCable.cu } : State).journal (.state ⟨false, false, true, false⟩
      s.cu.agreement s.cu.agreement s.cu.wheelFault true)).setEventAll .state) := by
  rw [State.loseCable_cu]
  rfl

/-- A parameter other than the budget's two is written within its range, and acts (R176). -/
theorem actConfigSet_written {p : Port} {name : Byte} {v : Int} {cfg : Settings} {s : State}
    (put : s.cfg.put name.toNat v = some cfg) (allowance : name.toNat ≠ 0x0B) (floor : name.toNat ≠ 0x0C) :
    actConfigSet p (name, v) s =
      (({ s with cfg := cfg } : State).actOnSetting name.toNat, ⟨.ok, name :: s32 v⟩) := by
  unfold actConfigSet
  dsimp only
  rw [put]
  simp [namesBudget, allowance, floor]

/-- The glitch width's write judges both phases against it (R1). -/
theorem rejudgePhases_judged {cfg : Settings} {h : State} {v : Int} (width : (cfg.glitchWidth : Int) = v) :
    (({ h with cfg := cfg } : State).actOnSetting 0x08).cu =
      { h.cu with candA := judged v h.cu.candA, candB := judged v h.cu.candB } := by
  rw [← width, ← rejudge_eq_judged, ← rejudge_eq_judged]
  rfl

/-- The time since the last report against a limit just written, in ms (R18). -/
theorem silent_eq {cfg : Settings} {h : State} {v : Int} (limit : (cfg.reelSilenceLimit : Int) = v) :
    ({ h with cfg := cfg } : State).silenceReached =
      h.cu.silenceStart.any fun start => decide (v * 2000 ≤ (h.now - start : Nat)) := by
  rw [State.silenceReached_eq, ← limit]
  dsimp only
  congr
  funext start
  exact decide_eq_decide.mpr (by omega)

/-- The silence limit's write whole (R18). -/
theorem silenceLimit_written {cfg : Settings} {h : State} {v : Int} (limit : (cfg.reelSilenceLimit : Int) = v) :
    let t := ({ h with cfg := cfg } : State).actOnSetting 0x07
    t = if h.cu.silenceStart.any fun start => decide (v * 2000 ≤ (h.now - start : Nat)) then
        ((({ h with cfg := t.cfg, cu := t.cu } : State).journal (.state ⟨false, false, true, false⟩
          h.cu.agreement h.cu.agreement h.cu.wheelFault true)).setEventAll .state)
      else { h with cfg := t.cfg } := by
  dsimp only
  rw [State.actOnSetting_cfg, State.actOnSetting_silence, silent_eq limit]
  split
  · exact State.loseCable_eq _
  · rfl

/-- The dwell state after a dwell time of v ms (R115). -/
theorem dwellTimeWritten_of {cfg : Settings} {h : State} {v : Int} (time : (cfg.dwellTime : Int) = v) :
    ({ h with cfg := cfg } : State).dwellTimeWritten.ld.dwell =
      if h.ld.dwell then decide (v ≠ 0)
      else decide (v ≠ 0) && h.sq.isEmpty &&
        h.ld.standstill.any fun start => decide (v ≤ ((h.now - start) / 2000 : Nat)) := by
  rw [State.dwellTimeWritten_dwell, ← time]
  simp only [ne_eq, Int.natCast_eq_zero, Nat.cast_le]

/-- Settles O15: the settings are those that the write's own lemmas give, and the rest is the act of the
name written. -/
theorem configSetWritesTheValue : Obligations.ConfigSetWritesTheValue := by
  intro name b0 b1 b2 b3 lo hi s accepted range allowance floor low high
  have at_ (k : Byte) : name = k ↔ name.toNat = k.toNat := BitVec.toNat_inj.symm
  have silence : name = 0x07 ↔ name.toNat = 0x07 := at_ _
  have glitch : name = 0x08 ↔ name.toNat = 0x08 := at_ _
  have mode : name = 0x09 ↔ name.toNat = 0x09 := at_ _
  have period : name = 0x0E ↔ name.toNat = 0x0E := at_ _
  have level : name = 0x12 ↔ name.toNat = 0x12 := at_ _
  have dwell : name = 0x18 ↔ name.toNat = 0x18 := at_ _
  rw [ne_eq, at_] at allowance floor
  have heard_cfg : (s.heard .surface).cfg = s.cfg := by simp
  have exec_eq := exec_configSet_accepted accepted
  generalize heard : s.heard .surface = h at heard_cfg exec_eq
  obtain ⟨cfg, put⟩ := Option.isSome_iff_exists.mp ((Settings.put_isSome range).mpr ⟨low, high⟩)
  have bytes := s32_word b0 b1 b2 b3
  generalize (word b0 b1 b2 b3).toInt = v at *
  rw [actConfigSet_written (by rw [heard_cfg]; exact put) allowance floor, bytes] at exec_eq
  refine ⟨_, exec_eq, ?_, fun other different => ?_, ?_⟩
  · rw [State.actOnSetting_cfg]
    exact Settings.put_parameter put
  · rw [State.actOnSetting_cfg, Settings.put_other different put]
    simp only [lowered, period, level]
  · have written := Settings.put_parameter put
    dsimp only
    simp only [ne_eq, silence, glitch, mode, dwell]
    rw [← heard_cfg] at put
    generalize name.toNat = code at *
    have act := State.actOnSetting_eq ({ h with cfg := cfg } : State) allowance floor
    refine ⟨fun other => ?_, State.actOnSetting_cu _, ?_, by simp, fun n => ?_, ?_, ?_, ?_, ?_⟩
    · obtain ⟨jn, pi, -⟩ := State.actOnSetting_jn_pi ({ h with cfg := cfg } : State) other allowance floor
      exact ⟨jn, pi⟩
    · rintro rfl
      exact rejudgePhases_judged (Option.some.inj written)
    · rw [State.actOnSetting_cands]
      split
      · next line =>
        subst line
        have width : ((cfg.lines.get n).debounce : Int) = v :=
          Option.some.inj ((parameter_line (kind := 2) n cfg (by decide)).symm.trans written)
        rw [rejudge_eq_judged, Settings.lineWidth, ticksOfMs, Nat.cast_mul, width]
        rfl
      · rfl
    · rintro rfl
      simp only [State.actOnSetting_cfg]
      rfl
    · rintro rfl
      rw [State.actOnSetting_silence, silent_eq (Option.some.inj written)]
      split
      · rw [State.loseCable_cu, Settings.put_sourceMode put (by decide)]
      · rfl
    · rintro rfl
      exact silenceLimit_written (Option.some.inj written)
    · refine act.trans (State.eq_of_fields (ld := ?_))
      by_cases dwells : code = 0x18
      · subst dwells
        simp only [if_true, dwellTimeWritten_of (Option.some.inj written)]
      · simp only [if_neg dwells]

end Sys2Proof.Machine
end

section
/-! Handing a record (9.3): which events it sets, and on what of a state it depends. -/

namespace Sys2Proof.Machine

/-! ### JOURNAL events (R158) -/

theorem State.notifyPort_latch (seq : Nat) (q p : Port) (s : State) :
    (s.notifyPort seq q).pi.latches.get p =
      s.pi.latches.get p ||| (if q = p ∧ s.jn.cursors.get p = seq then Event.bit .journal else 0) := by
  unfold State.notifyPort
  by_cases same : q = p
  · subst same
    split
    · next at_ => simp [at_]
    · next other => simp [other]
  · split
    · simp [same]
    · simp [same]

/-- The ports whose cursor is the number stored. -/
theorem State.notifyStored_latch (seq : Nat) (p : Port) (s : State) :
    (s.notifyStored seq).pi.latches.get p =
      s.pi.latches.get p ||| (if s.jn.cursors.get p = seq then Event.bit .journal else 0) := by
  unfold State.notifyStored
  simp only [State.notifyPort_latch, State.notifyPort_frame]
  cases p <;> simp

theorem State.storeRecord_latch (kept : List Record) (h : Header) (b : Body) (p : Port) (s : State) :
    (s.storeRecord kept h b).pi.latches.get p =
      s.pi.latches.get p ||| (if s.jn.cursors.get p = s.jn.next then Event.bit .journal else 0) :=
  State.notifyStored_latch s.jn.next p _

/-- A record handed sets JOURNAL on the ports whose cursor is a number that it has used up (R158). -/
theorem State.handRecord_latch (h : Header) (b : Body) (p : Port) (s : State) :
    (s.handRecord h b).1.pi.latches.get p = s.pi.latches.get p |||
      (if s.jn.next ≤ s.jn.cursors.get p ∧ s.jn.cursors.get p < (s.handRecord h b).1.jn.next then
        Event.bit .journal else 0) := by
  have none_ (n : Nat) : ¬ (s.jn.next ≤ n ∧ n < s.jn.next) := by omega
  have one (n : Nat) : (s.jn.next ≤ n ∧ n ≤ s.jn.next) ↔ n = s.jn.next := by omega
  unfold State.handRecord
  dsimp only
  split
  · simp [State.countDrop, none_]
  · split
    · split
      · simp [State.storeRecord_latch, one]
      · simp [State.countDrop, none_]
    · split
      · split
        · simp [State.storeRecord_latch, State.clearDrops, State.countDrop, one]
        · simp [State.countDrop, none_]
      · split
        · simp only [State.clearDrops, State.storeRecord_latch, State.storeRecord_jn, State.storeRecord_frame]
          rw [BitVec.or_assoc]
          congr 1
          generalize s.jn.cursors.get p = cursor
          by_cases first : cursor = s.jn.next
          · simp [first]
          · by_cases second : cursor = s.jn.next + 1
            · simp [second]
            · have neither : ¬ (s.jn.next ≤ cursor ∧ cursor < s.jn.next + 1 + 1) := by omega
              rw [if_neg first, if_neg second, if_neg neither]
              rfl
        · simp [State.countDrop, none_]

theorem or_keeps {x e : BitVec 9} (set : x &&& e = e) (y : BitVec 9) : (x ||| y) &&& e = e := by
  ext i hi
  have bit := congrArg (fun z : BitVec 9 => z[i]) set
  simp only [BitVec.getElem_and, BitVec.getElem_or, Bool.and_eq_right_iff_imp] at bit ⊢
  exact fun marked => by simp [bit marked]

/-- An event once set stays set while records are handed. -/
theorem State.journal_keepsEvent {b : Body} {p : Port} {s : State} {e : BitVec 9}
    (set : s.pi.latches.get p &&& e = e) : (s.journal b).pi.latches.get p &&& e = e := by
  rw [State.journal, State.handRecord_latch]
  exact or_keeps set _

/-! ### What a record depends on -/

theorem State.notifyStored_congr {s t : State} (cursors : t.jn.cursors = s.jn.cursors) (pi : t.pi = s.pi) (seq : Nat) :
    (t.notifyStored seq).pi = (s.notifyStored seq).pi := by
  have port {u v : State} (q : Port) (cursors : u.jn.cursors = v.jn.cursors) (pi : u.pi = v.pi) :
      (u.notifyPort seq q).pi = (v.notifyPort seq q).pi := by
    unfold State.notifyPort
    rw [cursors]
    split
    · simp only [State.setEvent, pi]
    · exact pi
  unfold State.notifyStored
  exact port .head (by simpa using cursors) (port .drive (by simpa using cursors) (port .surface cursors pi))

theorem State.storeRecord_congr {s t : State} (jn : t.jn = s.jn) (pi : t.pi = s.pi) (kept : List Record)
    (h : Header) (b : Body) :
    (t.storeRecord kept h b).jn = (s.storeRecord kept h b).jn ∧
    (t.storeRecord kept h b).pi = (s.storeRecord kept h b).pi := by
  refine ⟨by simp only [State.storeRecord_jn, jn], ?_⟩
  unfold State.storeRecord
  rw [jn]
  refine State.notifyStored_congr ?_ ?_ _
  · rfl
  · exact pi

theorem State.countDrop_congr {s t : State} (jn : t.jn = s.jn) (clock : t.cu.runClock = s.cu.runClock) :
    t.countDrop.jn = s.countDrop.jn := by
  simp only [State.countDrop, jn, clock]

theorem State.clearDrops_congr {s t : State} (jn : t.jn = s.jn) (pi : t.pi = s.pi) :
    t.clearDrops.jn = s.clearDrops.jn ∧ t.clearDrops.pi = s.clearDrops.pi :=
  ⟨by simp only [State.clearDrops, jn], pi⟩

/-- A record handed depends on the journal, the port interface and the published state. -/
theorem State.handRecord_congr {s t : State} (jn : t.jn = s.jn) (pi : t.pi = s.pi)
    (published : t.cu.published = s.cu.published) (h : Header) (b : Body) :
    (t.handRecord h b).1.jn = (s.handRecord h b).1.jn ∧ (t.handRecord h b).1.pi = (s.handRecord h b).1.pi ∧
    (t.handRecord h b).2 = (s.handRecord h b).2 := by
  have header : t.header = s.header := by rw [State.header, published]; rfl
  have clock : t.cu.runClock = s.cu.runClock := congrArg Published.runClock published
  have dropped := State.countDrop_congr jn clock
  have dropped_pi : t.countDrop.pi = s.countDrop.pi := pi
  unfold State.handRecord
  dsimp only
  rw [jn, header, dropped]
  split
  · exact ⟨dropped, pi, rfl⟩
  · split
    · split
      · exact ⟨(State.storeRecord_congr jn pi _ _ _).1, (State.storeRecord_congr jn pi _ _ _).2, rfl⟩
      · exact ⟨dropped, pi, rfl⟩
    · split
      · split
        · next kept _ =>
          obtain ⟨stored, notified⟩ := State.storeRecord_congr dropped dropped_pi kept s.header
            (s.countDrop.jn.lostBody s.countDrop.jn.dropCount)
          obtain ⟨records, events⟩ := State.clearDrops_congr stored notified
          exact ⟨records, events, rfl⟩
        · exact ⟨dropped, pi, rfl⟩
      · split
        · next kept _ =>
          obtain ⟨lost, told⟩ := State.storeRecord_congr jn pi kept s.header (s.jn.lostBody s.jn.dropCount)
          rw [lost]
          obtain ⟨stored, notified⟩ := State.storeRecord_congr lost told
            (s.storeRecord kept s.header (s.jn.lostBody s.jn.dropCount)).jn.store h b
          obtain ⟨records, events⟩ := State.clearDrops_congr stored notified
          exact ⟨records, events, rfl⟩
        · exact ⟨dropped, pi, rfl⟩

theorem State.journal_congr {s t : State} (jn : t.jn = s.jn) (pi : t.pi = s.pi)
    (published : t.cu.published = s.cu.published) (b : Body) :
    (t.journal b).jn = (s.journal b).jn ∧ (t.journal b).pi = (s.journal b).pi := by
  have header : t.header = s.header := by rw [State.header, published]; rfl
  unfold State.journal
  rw [header]
  obtain ⟨records, events, -⟩ := State.handRecord_congr jn pi published s.header b
  exact ⟨records, events⟩

end Sys2Proof.Machine
end

section
/-! The snapshot (R172), re-references (R27 to R32) and runs (R36). -/

namespace Sys2Proof.Machine

/-- The flag byte of the snapshot (12.2). -/
theorem Chainage.published_flags (c : Chainage) :
    c.published.flags = c.trusted.code + 4 * c.agreement.code + 16 * c.wheelFault.toNat +
      32 * c.cableLost.toNat + 64 * c.sat.toNat + 128 * (decide (c.trusted = .none)).toNat := by
  simp only [Published.flags, positionFlags, Chainage.published, Chainage.held, packBits]
  omega

/-- The halt byte of the snapshot (12.2). -/
theorem HaltController.statusByte_eq (h : HaltController) :
    h.statusByte = haltStateCode h.seq + 4 * (h.seq.any fun q => q.kind = .haltStill).toNat +
      8 * (h.seq.any HaltSeq.unconfirmed).toNat + 16 * h.linkHalt.toNat +
      32 * (h.seq.isSome || h.linkHalt).toNat := by
  simp only [HaltController.statusByte, packBits, HaltController.dhalt]
  omega

/-- Settles O11: the snapshot's pieces have the lengths of 12.2, so each slice is one of them. -/
theorem statusAnswersTheSnapshot : Obligations.StatusAnswersTheSnapshot := by
  refine ⟨fun p s accepted => ⟨(s.heard p).snapshot p, ?_, rfl, ?_⟩, ?_⟩
  · exact congrArg Host.Outcome.next (State.request_acts accepted (fun _ => by decide) rfl rfl)
  · dsimp only
    rw [← Chainage.published_flags, ← HaltController.statusByte_eq]
    generalize s.heard p = h
    unfold State.snapshot
    dsimp only
    simp only [s32, s16, u32, u16, u8, le32, le16, List.cons_append, List.nil_append, List.drop_succ_cons,
      List.drop_zero, List.take_succ_cons, List.take_zero, Chainage.published, and_self]
  · refine ⟨rfl, rfl, rfl, rfl, rfl, fun q => ?_, rfl, fun _ => rfl⟩
    cases state : q.state <;> simp [haltStateCode, state]

/-! ### Re-references -/

/-- The chainage, SAT, epoch and history of a re-reference with value v, and the sides from the new chainage
(R27 to R29). -/
def State.moved (v : Int) (s : State) : State :=
  let c := if v < -100000 then -100000 else if 3000000 < v then 3000000 else v
  { s with
    cu := { s.cu with
      chainage := c, sat := decide (v < -100000 ∨ 3000000 < v)
      epoch := if s.cu.epoch = 0xFFFF then 1 else s.cu.epoch + 1
      history := s.cu.history.map (· + (c - s.cu.chainage)) }
    wt := s.wt.map fun
      | .armed e _ => .armed e (if c < e.point then .below else .above)
      | x => x }

theorem clamped_ne_iff (v : Int) : clampInt chMin chMax v ≠ v ↔ v < -100000 ∨ 3000000 < v := by
  unfold clampInt chMin chMax
  split
  · omega
  · split <;> omega

theorem State.rereference_eq (v : Int) (requester : Requester) (s : State) :
    s.rereference v requester =
      ((s.moved v).journal (.reref requester s.cu.chainage)).setEventAll .reref := by
  have sat : decide (clampInt chMin chMax v ≠ v) = decide (v < -100000 ∨ 3000000 < v) :=
    decide_eq_decide.mpr (clamped_ne_iff v)
  have side (c : Int) : Slot.resided c = fun
      | .armed e _ => .armed e (if c < e.point then .below else .above)
      | x => x := by
    funext x
    cases x <;> rfl
  unfold State.rereference State.recomputeSides
  dsimp only
  rw [sat, side]
  rfl

theorem exec_zero_accepted {b0 b1 b2 b3 : Byte} {s : State} (h : s.accepts .surface 0x12 [b0, b1, b2, b3]) :
    exec (.zero .surface [b0, b1, b2, b3]) s =
      .next (State.answeredWith .surface 0x12 (actZero .surface (word b0 b1 b2 b3).toInt (s.heard .surface))) :=
  congrArg Host.Outcome.next (State.request_acts h (fun _ => by decide) rfl rfl)

theorem exec_setChainage_accepted {b0 b1 b2 b3 e0 e1 : Byte} {s : State}
    (h : s.accepts .surface 0x13 [b0, b1, b2, b3, e0, e1]) :
    exec (.setChainage .surface [b0, b1, b2, b3, e0, e1]) s =
      .next (State.answeredWith .surface 0x13
        (actSetChainage .surface ((word b0 b1 b2 b3).toInt, half e0 e1) (s.heard .surface))) :=
  congrArg Host.Outcome.next (State.request_acts h (fun _ => by decide) rfl rfl)

/-- The answer of a re-reference shows the epoch and chainage that it made (R31, R32). -/
theorem State.rereference_referenceData (v : Int) (requester : Requester) (s : State) :
    (s.rereference v requester).referenceData = (s.moved v).referenceData := by
  rw [State.rereference_eq]
  simp [State.referenceData]

theorem actZero_eq (p : Port) (v : Int) (s : State) :
    actZero p v s =
      (((s.moved v).journal (.reref .zero s.cu.chainage)).setEventAll .reref, ⟨.ok, (s.moved v).referenceData⟩) := by
  unfold actZero
  dsimp only
  rw [State.rereference_referenceData, State.rereference_eq]

theorem actSetChainage_eq (p : Port) (a : Int × Half) (s : State) :
    actSetChainage p a s =
      if a.2 = 0 ∨ a.2 = s.cu.epoch then
        (((s.moved a.1).journal (.reref .set s.cu.chainage)).setEventAll .reref,
          ⟨.ok, (s.moved a.1).referenceData⟩)
      else (s, ⟨.stale, s.referenceData⟩) := by
  unfold actSetChainage
  dsimp only
  rw [State.rereference_referenceData, State.rereference_eq]

/-- Settles O16. -/
theorem reReferenceIsTakenWhole : Obligations.ReReferenceIsTakenWhole := by
  intro b0 b1 b2 b3 e0 e1 s
  have cu : (s.heard .surface).cu = s.cu := by simp
  refine ⟨fun accepted => ?_, fun accepted expected => ?_, fun accepted named stale => ?_⟩
  · rw [exec_zero_accepted accepted, actZero_eq]
    rfl
  · rw [exec_setChainage_accepted accepted, actSetChainage_eq, if_pos (by rw [cu]; exact expected)]
    rfl
  · rw [exec_setChainage_accepted accepted, actSetChainage_eq, if_neg (by rw [cu]; tauto)]
    simp only [State.answeredWith, State.referenceData, cu]

end Sys2Proof.Machine
end

section
/-! Runs (R36, R37), and what a journal in WRAP with no drops stores (R147, R148). -/

namespace Sys2Proof.Machine

/-! ### Storing in WRAP -/

/-- With every record evictable and no drop counted, a record of at most 8,192 words is stored behind the
newest that fit with it (R147, R148). -/
theorem State.journal_wrap {s : State} {b : Body} (wrap : s.jn.mode = .wrap) (whole : s.jn.dropCount = 0)
    (numbers : s.jn.next < exhaustedNumber) (short : b.words ≤ storeWords) :
    (s.journal b).jn = { s.jn with
      store := s.jn.store.drop (evictions b.words s.jn.store) ++ [⟨s.jn.next, s.header, b⟩]
      next := s.jn.next + 1 } := by
  have free (r : Record) : s.jn.evictable r = true := by simp [Journal.evictable, wrap]
  have kept : makeRoom s.jn.evictable b.words s.jn.store =
      some (s.jn.store.drop (evictions b.words s.jn.store)) := by
    rw [makeRoom_eq, if_pos ⟨short, fun r _ => free r⟩]
  have room : ¬ exhaustedNumber ≤ s.jn.next := Nat.not_le.mpr numbers
  simp [State.journal, State.handRecord, room, whole, kept]

/-- Records that fit together with a length are not evicted for it. -/
theorem evictions_append_le {need : Nat} (xs : List Record) {ys : List Record}
    (fits : need + usedWords ys ≤ storeWords) : evictions need (xs ++ ys) ≤ xs.length := by
  by_contra more
  have tooMany := evictions_fewest need (xs ++ ys) xs.length (by omega)
  rw [List.drop_left] at tooMany
  omega

/-- A journal in WRAP without drops whose newest records are `ys` and whose next number is `next`. -/
def Journal.endsWith (ys : List Record) (next : Nat) (j : Journal) : Prop :=
  j.mode = .wrap ∧ j.dropCount = 0 ∧ j.next = next ∧ ∃ kept, j.store = kept ++ ys

/-- A record stored joins the newest ones, and evicts none that fit beside it. -/
theorem State.journal_endsWith {s : State} {b : Body} {ys : List Record} {next : Nat} (h : s.jn.endsWith ys next)
    (numbers : next < exhaustedNumber) (fits : b.words + usedWords ys ≤ storeWords) :
    (s.journal b).jn.endsWith (ys ++ [⟨next, s.header, b⟩]) (next + 1) := by
  obtain ⟨wrap, whole, rfl, xs, store⟩ := h
  rw [State.journal_wrap wrap whole numbers (by omega)]
  refine ⟨wrap, whole, rfl, xs.drop (evictions b.words (xs ++ ys)), ?_⟩
  rw [store, List.drop_append_of_le_length (evictions_append_le xs fits), List.append_assoc]

theorem State.setEventAll_congr {s t : State} (pi : t.pi = s.pi) (e : Event) :
    (t.setEventAll e).pi = (s.setEventAll e).pi := by
  simp only [State.setEventAll, State.setEvent, pi]

/-! ### RUN START -/

theorem State.runBegun_cu (s : State) :
    s.runBegun.cu = { s.cu with
      runNumber := nextSkippingZero s.cu.runNumber, runClock := 0, clockDue := s.now + ticksOfMs 1
      runState := .survey, runWheelBase := s.cu.wheelTrack, runCableBase := s.cu.cableTrack } := by
  unfold State.runBegun
  dsimp only
  split <;> simp [State.closeRun]

theorem State.moved_fields (v : Int) (s : State) :
    SameBase (s.moved v) s ∧ (s.moved v).now = s.now ∧ (s.moved v).ca = s.ca ∧ (s.moved v).fs = s.fs ∧
    (s.moved v).ld = s.ld ∧ (s.moved v).sq = s.sq ∧ (s.moved v).hc = s.hc ∧ (s.moved v).jn = s.jn ∧
    (s.moved v).pi = s.pi ∧ (s.moved v).li = s.li ∧ (s.moved v).sp = s.sp := by simp [State.moved]

@[simp] theorem State.runBegun_frame (s : State) :
    SameBase s.runBegun s ∧ s.runBegun.now = s.now ∧ s.runBegun.wt = s.wt ∧ s.runBegun.ca = s.ca ∧
    s.runBegun.fs = s.fs ∧ s.runBegun.ld = s.ld ∧ s.runBegun.sq = s.sq ∧ s.runBegun.hc = s.hc ∧
    OnlyRecords s.runBegun s ∧ OnlyLatches s.runBegun s ∧ s.runBegun.li = s.li ∧ s.runBegun.sp = s.sp := by
  unfold State.runBegun
  dsimp only
  split <;> simp

/-- The chainage unit that RUN START leaves (R36). -/
theorem State.startRun_cu (v : Int) (direction : Direction) (label : List Byte) (s : State) :
    (s.startRun v direction label).cu = { (s.runBegun.moved v).cu with
      window := s.newWindow, differing := none } := by
  rw [State.startRun_eq, State.runReferenced, State.rereference_eq]
  simp only [State.journal_frame, State.reopenWindow, State.setEventAll_frame, State.newWindow, State.moved,
    State.runBegun_cu, State.runBegun_frame]

theorem State.startRun_wt (v : Int) (direction : Direction) (label : List Byte) (s : State) :
    (s.startRun v direction label).wt = (s.runBegun.moved v).wt := by
  rw [State.startRun_eq, State.runReferenced, State.rereference_eq]
  simp only [State.journal_frame, State.reopenWindow, State.setEventAll_frame]

/-- The journal and the latches after RUN START: each record is made in a state with the header that it
asks for. -/
theorem State.startRun_records (v : Int) (direction : Direction) (label : List Byte) (s : State) :
    let t := s.startRun v direction label
    let closed := if s.cu.runState = .survey then
        s.journal (.runClose true (s.cu.wheelTrack - s.cu.runWheelBase) (s.cu.cableTrack - s.cu.runCableBase))
      else s
    let opened := State.journal (.runOpen direction label)
      ((State.journal (.reref .runStart s.cu.chainage) { closed with cu := t.cu, wt := t.wt }).setEventAll .reref)
    t.jn = opened.jn ∧ t.pi = opened.pi := by
  intro t closed opened
  have cu : t.cu = { (s.runBegun.moved v).cu with window := s.newWindow, differing := none } :=
    State.startRun_cu v direction label s
  have begun : s.runBegun.jn = closed.jn ∧ s.runBegun.pi = closed.pi := by
    unfold State.runBegun closed
    dsimp only
    split <;> exact ⟨rfl, rfl⟩
  have old : s.runBegun.cu.chainage = s.cu.chainage := by rw [State.runBegun_cu]
  obtain ⟨jn, pi⟩ := State.journal_congr (s := { closed with cu := t.cu, wt := t.wt }) (t := s.runBegun.moved v)
    begun.1 begun.2 (by rw [cu]; rfl) (.reref .runStart s.cu.chainage)
  have referenced : s.runReferenced v = { ((s.runBegun.moved v).journal (.reref .runStart s.cu.chainage)).setEventAll
      .reref with cu := t.cu } := by
    have same : (s.runReferenced v).cu = t.cu := by
      show _ = (s.startRun v direction label).cu
      rw [State.startRun_eq]
      simp
    rw [← same, State.runReferenced, State.rereference_eq, old]
    rfl
  have events := State.setEventAll_congr pi .reref
  have opens : t = (s.runReferenced v).journal (.runOpen direction label) := State.startRun_eq v direction label s
  rw [opens, referenced]
  refine State.journal_congr ?_ ?_ ?_ _
  · simpa using jn
  · exact events
  · simp

theorem exec_runStart_accepted {b0 b1 b2 b3 d : Byte} {label : List Byte} {s : State} (short : label.length ≤ 16)
    (h : s.accepts .surface 0x10 (b0 :: b1 :: b2 :: b3 :: d :: label)) :
    exec (.runStart .surface (b0 :: b1 :: b2 :: b3 :: d :: label)) s =
      .next (State.answeredWith .surface 0x10
        (actRunStart .surface ((word b0 b1 b2 b3).toInt, d, label) (s.heard .surface))) :=
  congrArg Host.Outcome.next (State.request_acts h (fun _ => by decide) rfl (if_pos short))

theorem Direction.ofCode_none {n : Nat} (h : 1 < n) : Direction.ofCode n = none := by
  unfold Direction.ofCode
  split
  · omega
  · omega
  · rfl

theorem Direction.ofCode_byte {d : Byte} (h : d.toNat ≤ 1) :
    Direction.ofCode d.toNat = some (if d = 0 then .withFlow else .againstFlow) := by
  have zero : d = 0 ↔ d.toNat = 0 := BitVec.toNat_inj.symm
  simp only [zero]
  interval_cases d.toNat <;> rfl

/-- RUN START with a direction is the steps of R36 and its answer. -/
theorem actRunStart_eq {p : Port} {v : Int} {d : Byte} {label : List Byte} {s : State} (h : d.toNat ≤ 1) :
    let t := s.startRun v (if d = 0 then .withFlow else .againstFlow) label
    actRunStart p (v, d, label) s = (t, ⟨.ok, le16 t.cu.runNumber ++ t.referenceData⟩) := by
  simp only [actRunStart, Direction.ofCode_byte h]

theorem State.startRun_latch (v : Int) (direction : Direction) (label : List Byte) (p : Port) (s : State) :
    (s.startRun v direction label).pi.latches.get p &&& Event.bit .reref = Event.bit .reref := by
  obtain ⟨-, pi⟩ := State.startRun_records v direction label s
  rw [pi]
  refine State.journal_keepsEvent ?_
  rw [State.setEventAll_latch, BitVec.or_comm]
  exact or_keeps (BitVec.and_self) _

/-- RUN START whole, but for the records (R36). -/
theorem State.startRun_whole (v : Int) (direction : Direction) (label : List Byte) (s : State) :
    let t := s.startRun v direction label
    t = { s with
      cu := { (s.runBegun.moved v).cu with window := s.newWindow, differing := none }
      wt := (s.runBegun.moved v).wt
      jn := { s.jn with
        store := t.jn.store, next := t.jn.next, dropCount := t.jn.dropCount, firstDrop := t.jn.firstDrop }
      pi := { s.pi with latches := t.pi.latches } } := by
  have jn := OnlyRecords.jn_eq (t := s.startRun v direction label) (s := s) (by simp)
  have pi := OnlyLatches.pi_eq (t := s.startRun v direction label) (s := s) (by simp)
  exact State.eq_of_fields (cu := State.startRun_cu v direction label s) (wt := State.startRun_wt v direction label s)
    (jn := jn) (pi := pi)

/-- The state in which RUN START's REREF record is made has the header that the run then has. -/
theorem State.startRun_header (v : Int) (direction : Direction) (label : List Byte) (s : State) :
    (s.startRun v direction label).header = (s.runBegun.moved v).header := by
  simp only [State.header, State.startRun_cu]
  rfl

theorem State.startRun_clock (v : Int) (direction : Direction) (label : List Byte) (s : State) :
    (s.startRun v direction label).header.runClock = 0 := by
  rw [State.startRun_header]
  simp only [State.header, State.moved, State.runBegun_cu]
  rfl

theorem State.startRun_chainage (v : Int) (direction : Direction) (label : List Byte) (s : State) :
    (s.startRun v direction label).cu.chainage =
      if v < -100000 then -100000 else if 3000000 < v then 3000000 else v := by
  rw [State.startRun_cu]
  rfl

/-- A label of at most 16 bytes makes a RUN_OPEN of at most ten words (12.4). -/
theorem runOpen_words {direction : Direction} {label : List Byte} (short : label.length ≤ 16) :
    (Body.runOpen direction label).words ≤ 10 := by
  simp only [Body.words, textWords]
  omega

/-- In WRAP with no drops RUN START in SURVEY leaves its three records at the newest end (R36). -/
theorem State.startRun_endsWith {s : State} (v : Int) (direction : Direction) {label : List Byte}
    (short : label.length ≤ 16) (survey : s.cu.runState = .survey) (wrap : s.jn.mode = .wrap)
    (whole : s.jn.dropCount = 0) (numbers : s.jn.next + 3 ≤ exhaustedNumber) :
    let t := s.startRun v direction label
    t.jn.endsWith
      [⟨s.jn.next, s.header,
        .runClose true (s.cu.wheelTrack - s.cu.runWheelBase) (s.cu.cableTrack - s.cu.runCableBase)⟩,
        ⟨s.jn.next + 1, t.header, .reref .runStart s.cu.chainage⟩,
        ⟨s.jn.next + 2, t.header, .runOpen direction label⟩] (s.jn.next + 3) := by
  intro t
  have words := runOpen_words (direction := direction) short
  have opens : s.jn.endsWith [] s.jn.next := ⟨wrap, whole, rfl, s.jn.store, by simp⟩
  have closed := State.journal_endsWith opens (by omega) (b := .runClose true
    (s.cu.wheelTrack - s.cu.runWheelBase) (s.cu.cableTrack - s.cu.runCableBase)) (by simp [Body.words, storeWords])
  have begun : (s.runBegun.moved v).jn = (s.journal (.runClose true (s.cu.wheelTrack - s.cu.runWheelBase)
      (s.cu.cableTrack - s.cu.runCableBase))).jn := by
    simp only [State.moved_fields, State.runBegun, survey, if_true]
    rfl
  rw [← begun] at closed
  have referenced := State.journal_endsWith closed (by omega) (b := .reref .runStart s.cu.chainage)
    (by simp [Body.words, storeWords])
  have headers : (s.runReferenced v).header = (s.runBegun.moved v).header := by
    rw [State.runReferenced, State.rereference_eq, State.header, State.header]
    simp only [State.journal_frame, State.reopenWindow, State.setEventAll_frame]
    rfl
  have journal : (s.runReferenced v).jn = ((s.runBegun.moved v).journal (.reref .runStart s.cu.chainage)).jn := by
    have old : s.runBegun.cu.chainage = s.cu.chainage := by rw [State.runBegun_cu]
    rw [State.runReferenced, State.rereference_eq, old]
    simp [State.reopenWindow]
  rw [← journal] at referenced
  have opened := State.journal_endsWith referenced (by omega) (b := .runOpen direction label)
    (by simp [Body.words, storeWords] at words ⊢; omega)
  rw [headers, ← State.startRun_header v direction label, ← State.startRun_eq] at opened
  exact opened

/-- Settles O18. -/
theorem runStartOpensANewRun : Obligations.RunStartOpensANewRun := by
  have cu (s : State) : (s.heard .surface).cu = s.cu := by simp
  have jn (s : State) : (s.heard .surface).jn = s.jn := by simp
  refine ⟨fun b0 b1 b2 b3 d label s short accepted => ⟨fun undirected => ?_, fun directed => ?_⟩,
    fun b0 b1 b2 b3 d label s short directed accepted survey wrap whole numbers => ?_⟩
  · rw [exec_runStart_accepted short accepted]
    simp only [actRunStart, Direction.ofCode_none undirected]
    rfl
  · refine ⟨(s.heard .surface).startRun (word b0 b1 b2 b3).toInt (if d = 0 then .withFlow else .againstFlow) label,
      ?_, fun p => State.startRun_latch _ _ _ p _, ?_, ?_⟩
    · rw [exec_runStart_accepted short accepted, actRunStart_eq directed, State.referenceData,
        State.startRun_chainage]
      simp only [State.answeredWith, List.append_assoc]
    · refine (State.startRun_whole _ _ _ _).trans ?_
      rw [State.moved, State.runBegun_cu, State.newWindow]
      simp only [State.runBegun_frame]
      rfl
    · rw [← cu s]
      exact State.startRun_records _ _ _ _
  · have stored := State.startRun_endsWith (s := s.heard .surface) (word b0 b1 b2 b3).toInt
      (if d = 0 then .withFlow else .againstFlow) short (by rw [cu]; exact survey) (by rw [jn]; exact wrap)
      (by rw [jn]; exact whole) (by rw [jn]; exact numbers)
    obtain ⟨-, -, next, kept, store⟩ := stored
    rw [exec_runStart_accepted short accepted, actRunStart_eq directed]
    have header : (s.heard .surface).header = s.header := by simp only [State.header, cu]
    have clock := State.startRun_clock (word b0 b1 b2 b3).toInt (if d = 0 then .withFlow else .againstFlow) label
      (s.heard .surface)
    rw [jn, cu, header] at store
    rw [jn] at next
    exact ⟨_, kept, _, _, _, rfl, store, next, rfl, rfl, rfl, rfl, rfl, rfl, rfl, clock, rfl, rfl, rfl, rfl, rfl,
      clock, rfl, rfl⟩

end Sys2Proof.Machine
end

section
/-! Increments of the tracks (R16, R19), the wheel decoder (R1 to R4) and the agreement window (R10 to R14). -/

namespace Sys2Proof.Machine

/-! ### Windows -/

/-- What a window test leaves of the chainage unit: all but the window, the illegal count, the agreement
state with its differing run, WHEEL_FAULT and the trusted track (R11 to R14). -/
@[simp] theorem State.testWindow_cu (s : State) :
    s.testWindow.cu.phaseA = s.cu.phaseA ∧ s.testWindow.cu.phaseB = s.cu.phaseB ∧
    s.testWindow.cu.candA = s.cu.candA ∧ s.testWindow.cu.candB = s.cu.candB ∧
    s.testWindow.cu.wheelTrack = s.cu.wheelTrack ∧ s.testWindow.cu.wheelResidual = s.cu.wheelResidual ∧
    s.testWindow.cu.cableTrack = s.cu.cableTrack ∧ s.testWindow.cu.cableResidual = s.cu.cableResidual ∧
    s.testWindow.cu.reelSeed = s.cu.reelSeed ∧ s.testWindow.cu.cableLost = s.cu.cableLost ∧
    s.testWindow.cu.silenceStart = s.cu.silenceStart ∧ s.testWindow.cu.chainage = s.cu.chainage ∧
    s.testWindow.cu.sat = s.cu.sat ∧ s.testWindow.cu.history = s.cu.history ∧
    s.testWindow.cu.velocity = s.cu.velocity ∧ s.testWindow.cu.gateDue = s.cu.gateDue ∧
    s.testWindow.cu.epoch = s.cu.epoch ∧ s.testWindow.cu.runState = s.cu.runState ∧
    s.testWindow.cu.runNumber = s.cu.runNumber ∧ s.testWindow.cu.runWheelBase = s.cu.runWheelBase ∧
    s.testWindow.cu.runCableBase = s.cu.runCableBase ∧ s.testWindow.cu.runClock = s.cu.runClock ∧
    s.testWindow.cu.clockDue = s.cu.clockDue := by
  unfold State.testWindow State.closeWindow
  dsimp only
  split
  · split <;> simp [State.journalState, State.chooseTrust, Chainage.closing]
  · simp

/-- A window that may have been tested, field by field. -/
@[simp] theorem State.tested_fields (whole : Prop) [Decidable whole] (s : State) :
    (if whole then s else s.testWindow).wt = s.wt ∧ (if whole then s else s.testWindow).now = s.now ∧
    (if whole then s else s.testWindow).cfg = s.cfg ∧ (if whole then s else s.testWindow).ca = s.ca ∧
    (if whole then s else s.testWindow).fs = s.fs ∧ (if whole then s else s.testWindow).ld = s.ld ∧
    (if whole then s else s.testWindow).sq = s.sq ∧ (if whole then s else s.testWindow).hc = s.hc ∧
    (if whole then s else s.testWindow).li = s.li ∧ (if whole then s else s.testWindow).sp = s.sp ∧
    (if whole then s else s.testWindow).pins = s.pins ∧
    (if whole then s else s.testWindow).cu.phaseA = s.cu.phaseA ∧
    (if whole then s else s.testWindow).cu.phaseB = s.cu.phaseB ∧
    (if whole then s else s.testWindow).cu.wheelTrack = s.cu.wheelTrack ∧
    (if whole then s else s.testWindow).cu.wheelResidual = s.cu.wheelResidual ∧
    (if whole then s else s.testWindow).cu.cableTrack = s.cu.cableTrack ∧
    (if whole then s else s.testWindow).cu.cableResidual = s.cu.cableResidual ∧
    (if whole then s else s.testWindow).cu.reelSeed = s.cu.reelSeed ∧
    (if whole then s else s.testWindow).cu.cableLost = s.cu.cableLost ∧
    (if whole then s else s.testWindow).cu.silenceStart = s.cu.silenceStart ∧
    (if whole then s else s.testWindow).cu.chainage = s.cu.chainage ∧
    (if whole then s else s.testWindow).cu.sat = s.cu.sat ∧
    (if whole then s else s.testWindow).cu.history = s.cu.history ∧
    (if whole then s else s.testWindow).cu.velocity = s.cu.velocity ∧
    (if whole then s else s.testWindow).cu.gateDue = s.cu.gateDue ∧
    (if whole then s else s.testWindow).cu.epoch = s.cu.epoch ∧
    (if whole then s else s.testWindow).cu.runState = s.cu.runState ∧
    (if whole then s else s.testWindow).cu.runNumber = s.cu.runNumber ∧
    (if whole then s else s.testWindow).cu.runWheelBase = s.cu.runWheelBase ∧
    (if whole then s else s.testWindow).cu.runCableBase = s.cu.runCableBase ∧
    (if whole then s else s.testWindow).cu.runClock = s.cu.runClock ∧
    (if whole then s else s.testWindow).cu.clockDue = s.cu.clockDue ∧
    (if whole then s else s.testWindow).pi.outQueue = s.pi.outQueue ∧
    (if whole then s else s.testWindow).pi.masks = s.pi.masks := by
  split <;> simp

theorem State.tested_slot (whole : Prop) [Decidable whole] (s : State) (i : Fin 16) :
    (if whole then s else s.testWindow).slot i = s.slot i := State.slot_congr (by simp) i

/-! ### Increments -/

/-- A chainage brought within its limits (R19). -/
def limited (v : Int) : Int := if v < -100000 then -100000 else if 3000000 < v then 3000000 else v

theorem limited_eq_clampInt (v : Int) : limited v = clampInt chMin chMax v := rfl

theorem limited_ne_iff (v : Int) : limited v ≠ v ↔ v < -100000 ∨ 3000000 < v := clamped_ne_iff v

/-- The chainage after an increment of the trusted track, its limits, SAT and the waypoints crossed; nothing
for any other track (R16 steps 2 and 3, R19). -/
def State.tracked (advances : Bool) (mm : Int) (s : State) : State :=
  let target := s.cu.chainage + mm
  let c := limited target
  let moved : State := { s with cu := { s.cu with
    chainage := if advances then c else s.cu.chainage
    sat := s.cu.sat || (advances && decide (c ≠ target)) } }
  if advances && decide (c ≠ s.cu.chainage) then slotNumbers.foldl (State.crossSlot c) moved else moved

theorem State.tracked_false (mm : Int) (s : State) : s.tracked false mm = s := by
  simp [State.tracked]

theorem State.tracked_true (mm : Int) (s : State) : s.tracked true mm = s.advance mm := by
  unfold State.tracked State.advance State.crossWaypoints
  simp only [Bool.true_and, decide_eq_true_eq, if_true]
  rfl

/-- Only the trusted track's increments advance the chainage. -/
theorem State.advance_if_tracked (trusted : Prop) [Decidable trusted] (mm : Int) (s : State) :
    (if trusted then s.advance mm else s) = s.tracked (decide trusted) mm := by
  by_cases advances : trusted
  · simp only [if_pos advances, decide_eq_true advances, State.tracked_true]
  · simp only [if_neg advances, decide_eq_false advances, State.tracked_false]

@[simp] theorem State.tracked_cu (advances : Bool) (mm : Int) (s : State) :
    (s.tracked advances mm).cu = { s.cu with
      chainage := if advances then limited (s.cu.chainage + mm) else s.cu.chainage
      sat := s.cu.sat || (advances && decide (s.cu.chainage + mm < -100000 ∨ 3000000 < s.cu.chainage + mm)) } := by
  unfold State.tracked
  dsimp only
  simp only [decide_eq_decide.mpr (limited_ne_iff _)]
  split
  · rw [(foldl_crossSlot_frame _ _ _).2.2.1]
  · rfl

@[simp] theorem State.tracked_frame (advances : Bool) (mm : Int) (s : State) :
    SameBase (s.tracked advances mm) s ∧ (s.tracked advances mm).now = s.now ∧
    (s.tracked advances mm).ca = s.ca ∧ (s.tracked advances mm).fs = s.fs ∧
    (s.tracked advances mm).li = s.li ∧ (s.tracked advances mm).sp = s.sp ∧
    OnlyLatches (s.tracked advances mm) s := by
  cases advances with
  | false => simp [State.tracked_false]
  | true => simp [State.tracked_true]

/-- Each slot meets the new chainage once, when there is one (R47, R48). -/
theorem State.tracked_slot (advances : Bool) (mm : Int) (s : State) (i : Fin 16) :
    let c := limited (s.cu.chainage + mm)
    (s.tracked advances mm).slot i =
      if advances && decide (c ≠ s.cu.chainage) then (s.slot i).crossed c else s.slot i := by
  intro c
  unfold State.tracked
  dsimp only
  split
  · exact foldl_crossSlot_slotNumbers _ _ i
  · rfl

theorem State.wheelIncrement_eq (mm : Int) (s : State) :
    s.wheelIncrement mm =
      (({ s with cu := { s.cu with wheelTrack := s.cu.wheelTrack + BitVec.ofInt 32 mm } } : State).tracked
        (decide (s.cu.trusted = .wheel)) mm).testWindow := by
  rw [← State.advance_if_tracked]
  rfl

theorem State.cableIncrement_eq (mm : Int) (s : State) :
    s.cableIncrement mm =
      (({ s with cu := { s.cu with cableTrack := s.cu.cableTrack + BitVec.ofInt 32 mm } } : State).tracked
        (decide (s.cu.trusted = .cable)) mm).testWindow := by
  rw [← State.advance_if_tracked]
  rfl

/-- Whole millimetres and what is left of them (R3, R7). -/
theorem tmod_eq (sum : Int) : sum.tmod 1000 = sum - 1000 * sum.tdiv 1000 := Int.tmod_def sum 1000

/-! ### The wheel -/

theorem exec_wheelFilterAccept {wa wb : Bool} {s : State} (running : s.resetLine = false) :
    exec (.wheelFilterAccept wa wb) s = .next (s.acceptPair wa wb) :=
  congrArg Host.Outcome.next (State.whenRunning_running _ running)

theorem cyclePlace_eq (a b : Bool) : cyclePlace a b = if a then (if b then 2 else 1) else (if b then 3 else 0) := by
  cases a <;> cases b <;> rfl

/-- The accepted pair, its phases' candidates dropped where they changed (R1). -/
def Chainage.paired (wa wb : Bool) (c : Chainage) : Chainage :=
  { c with
    phaseA := wa, phaseB := wb
    candA := if wa = c.phaseA then c.candA else none
    candB := if wb = c.phaseB then c.candB else none }

theorem State.acceptPair_eq (wa wb : Bool) (s : State) :
    s.acceptPair wa wb =
      match decodePair s.cu.phaseA s.cu.phaseB wa wb with
      | .same => { s with cu := s.cu.paired wa wb }
      | .step forward => ({ s with cu := s.cu.paired wa wb } : State).wheelStep forward
      | .illegal => ({ s with cu := s.cu.paired wa wb } : State).illegalTransition := rfl

/-- A step of the encoder is a turn of one or three places (R2). -/
theorem decodePair_step {a b wa wb : Bool} {turn : Nat} (turned : turn = 1 ∨ turn = 3)
    (places : (cyclePlace wa wb + 4 - cyclePlace a b) % 4 = turn) :
    decodePair a b wa wb = .step (decide (turn = 1)) := by
  unfold decodePair
  rw [places]
  rcases turned with rfl | rfl <;> rfl

/-- A wheel step whole (R3, R16): with no whole mm only the residual changes. -/
theorem State.wheelStep_eq (forward : Bool) (s : State) :
    let sum := s.cu.wheelResidual + (if forward then (s.cfg.wheelScale : Int) else -(s.cfg.wheelScale : Int))
    let mm := sum.tdiv 1000
    let crossed := ({ s with cu := { s.cu with
      wheelResidual := sum - 1000 * mm, wheelTrack := s.cu.wheelTrack + BitVec.ofInt 32 mm } } : State).tracked
        (decide (s.cu.trusted = .wheel ∧ mm ≠ 0)) mm
    s.wheelStep forward = if mm = 0 then crossed else crossed.testWindow := by
  unfold State.wheelStep
  dsimp only
  generalize s.cu.wheelResidual + _ = sum
  rw [tmod_eq]
  by_cases whole : sum.tdiv 1000 = 0
  · simp [whole, State.tracked_false]
  · simp only [whole, ne_eq, not_false_eq_true, and_true, if_false, State.wheelIncrement_eq]

/-- Settles O19. -/
theorem wheelStepMovesTrackAndChainage : Obligations.WheelStepMovesTrackAndChainage := by
  intro wa wb s running short place turn sum mm target c advances moved crossed turned
  have decoded := decodePair_step turned (a := s.cu.phaseA) (b := s.cu.phaseB) (wa := wa) (wb := wb)
    (by rw [cyclePlace_eq, cyclePlace_eq])
  have step : s.acceptPair wa wb = if mm = 0 then crossed else crossed.testWindow := by
    rw [State.acceptPair_eq, decoded]
    dsimp only
    rw [State.wheelStep_eq]
    simp only [decide_eq_true_eq]
    rfl
  refine ⟨s.acceptPair wa wb, exec_wheelFilterAccept running, step, ?_⟩
  have tracks : crossed = ({ s with cu := { s.cu.paired wa wb with
      wheelResidual := sum - 1000 * mm, wheelTrack := s.cu.wheelTrack + BitVec.ofInt 32 mm } } : State).tracked
        advances mm := rfl
  have residual : (sum - 1000 * mm).natAbs ≤ 999 := tmod_eq sum ▸ residual_le sum
  rw [step, tracks]
  refine ⟨fun i => ?_, ?_⟩
  · rw [State.tested_slot]
    exact State.tracked_slot advances mm _ i
  · simp only [State.tested_fields, State.tracked_cu, State.tracked_frame, Chainage.paired, true_and, and_true]
    refine ⟨residual, fun wheel moves => ?_, fun still => ?_⟩
    · have on : advances = true := decide_eq_true ⟨wheel, moves⟩
      simp only [on, if_true, Bool.true_and]
      exact ⟨rfl, rfl⟩
    · have off : advances = false := decide_eq_false (by tauto)
      simp [off, State.tracked_false]

/-! ### Illegal transitions (R2, R4) -/

theorem decodePair_same (a b : Bool) : decodePair a b a b = .same := by
  cases a <;> cases b <;> rfl

/-- Both phases changed is two places away. -/
theorem decodePair_opposite (a b : Bool) : decodePair a b (!a) (!b) = .illegal := by
  cases a <;> cases b <;> rfl

theorem Chainage.paired_same (c : Chainage) : c.paired c.phaseA c.phaseB = c := by
  simp [Chainage.paired]

theorem Chainage.paired_opposite (c : Chainage) :
    c.paired (!c.phaseA) (!c.phaseB) =
      { c with phaseA := !c.phaseA, phaseB := !c.phaseB, candA := none, candB := none } := by
  simp [Chainage.paired]

/-- An illegal transition that does not set WHEEL_FAULT is counted only. -/
theorem State.illegalTransition_counts {s : State} (h : s.cu.illegalCount ≠ 7 ∨ s.cu.wheelFault = true) :
    s.illegalTransition = { s with cu := { s.cu with illegalCount := min (s.cu.illegalCount + 1) 255 } } := by
  have kept : ¬ (min (s.cu.illegalCount + 1) 255 = 8 ∧ s.cu.illegalCount = 7 ∧ s.cu.wheelFault = false) := by
    rintro ⟨-, count, sound⟩
    rcases h with other | faulty
    · exact other count
    · rw [sound] at faulty
      cases faulty
  simp only [State.illegalTransition, kept, if_false]

theorem State.illegalTransition_faults {s : State} (count : s.cu.illegalCount = 7) (sound : s.cu.wheelFault = false) :
    s.illegalTransition =
      (({ s with cu := { s.cu with
          illegalCount := 8, wheelFault := true
          trusted := trustedTrack s.cfg.sourceMode s.cu.agreement true s.cu.cableLost } } : State).journal
        (.state ⟨false, true, false, false⟩ s.cu.agreement s.cu.agreement true s.cu.cableLost)).setEventAll
          .state := by
  simp only [State.illegalTransition, count, sound]
  rfl

/-- Settles O20. -/
theorem illegalTransitionIsCountedAndFaults : Obligations.IllegalTransitionIsCountedAndFaults := by
  intro s running
  have opposite : s.acceptPair (!s.cu.phaseA) (!s.cu.phaseB) = ({ s with cu := { s.cu with
      phaseA := !s.cu.phaseA, phaseB := !s.cu.phaseB, candA := none, candB := none } } :
        State).illegalTransition := by
    rw [State.acceptPair_eq, decodePair_opposite, Chainage.paired_opposite]
  refine ⟨?_, fun kept => ?_, fun count sound => ?_⟩
  · rw [exec_wheelFilterAccept running, State.acceptPair_eq, decodePair_same, Chainage.paired_same]
  · rw [exec_wheelFilterAccept running, opposite]
    exact congrArg _ (State.illegalTransition_counts kept)
  · rw [exec_wheelFilterAccept running, opposite]
    exact congrArg _ (State.illegalTransition_faults count sound)

/-! ### The class of a window (R11 to R14) -/

/-- The chainage unit once a window has closed, written as the rules state it. -/
def Chainage.closed (cfg : Settings) (c : Chainage) : Chainage :=
  let dw := (c.wheelTrack - c.window.wheelMark).toInt
  let dc := (c.cableTrack - c.window.cableMark).toInt
  let e := (if dw = 0 then dc.sign else dw.sign) * (dw - dc)
  let x : Agreement := if e > c.window.t then .slip else if e < -(c.window.t : Int) then .slack else .agree
  let count := if c.differing.any (fun r => r.1 = x) then (c.differing.map (·.2)).getD 0 + 1 else 1
  { c with
    window := ⟨c.wheelTrack, c.cableTrack, cfg.windowLength, cfg.windowLength * cfg.toleranceFactor / 256,
      cfg.confirmCount⟩
    illegalCount := 0
    wheelFault := c.wheelFault && decide (c.illegalCount ≠ 0)
    agreement := if c.cableLost = false ∧ x ≠ c.agreement ∧ c.window.k ≤ count then x else c.agreement
    differing := if c.cableLost then c.differing
      else if x = c.agreement ∨ c.window.k ≤ count then none else some (x, count) }

/-- The agreement state and the differing run by the count of windows in a row (R12). -/
theorem afterClass_eq (k : Nat) (x state : Agreement) (run : Option (Agreement × Nat)) :
    let count := if run.any (fun r => r.1 = x) then (run.map (·.2)).getD 0 + 1 else 1
    afterClass k x state run =
      (if x ≠ state ∧ k ≤ count then x else state, if x = state ∨ k ≤ count then none else some (x, count)) := by
  unfold afterClass
  by_cases same : x = state
  · simp [same]
  · cases run with
    | none => by_cases enough : k ≤ 1 <;> simp [same, enough]
    | some r =>
      obtain ⟨candidate, n⟩ := r
      by_cases again : candidate = x
      · by_cases enough : k ≤ n + 1 <;> simp [same, again, enough]
      · by_cases enough : k ≤ 1 <;> simp [same, again, enough]

theorem State.closing_eq (s : State) : s.cu.closing s.newWindow = s.cu.closed s.cfg := by
  unfold Chainage.closing Chainage.closed Chainage.windowMoves windowClass
  dsimp only
  rw [afterClass_eq]
  cases s.cu.cableLost <;> simp [State.newWindow]

/-- The close of a window by what it changes (R14). -/
theorem State.closeWindow_eq (s : State) :
    let opened := s.cu.closed s.cfg
    let agreed := decide (opened.agreement = s.cu.agreement)
    let sound := decide (opened.wheelFault = s.cu.wheelFault)
    s.closeWindow =
      if agreed && sound then { s with cu := opened }
      else (({ s with cu := { opened with
          trusted := trustedTrack s.cfg.sourceMode opened.agreement opened.wheelFault s.cu.cableLost } } :
            State).journal
        (.state ⟨!agreed, !sound, false, false⟩ s.cu.agreement opened.agreement opened.wheelFault
          s.cu.cableLost)).setEventAll .state := by
  intro opened agreed sound
  have causes : closeCauses s.cu opened = ⟨!agreed, !sound, false, false⟩ := by
    simp [closeCauses, agreed, sound]
  unfold State.closeWindow
  dsimp only
  rw [State.closing_eq, causes]
  cases agreed <;> cases sound <;> rfl

/-- Settles O21. -/
theorem windowCloseFormsItsClass : Obligations.WindowCloseFormsItsClass := by
  intro s dw dc e x count opened agreed sound
  have tests : s.testWindow =
      if s.cu.window.w ≤ dw.natAbs ∨ s.cu.window.w ≤ dc.natAbs then s.closeWindow else s := rfl
  refine ⟨fun wheel cable => ?_, fun moved => ?_⟩
  · rw [tests, if_neg (by omega)]
  · rw [tests, if_pos moved]
    exact State.closeWindow_eq s

end Sys2Proof.Machine
end

section
/-! The reel (R5 to R9): its reports, its silence, and the tracks that follow. -/

namespace Sys2Proof.Machine

/-- The state in which a reel report's case acts: the silence timer restarted, and a lost cable found (R5). -/
def State.found (s : State) : State :=
  if s.cu.cableLost then
    (({ s with cu := { s.cu with
        silenceStart := some s.now, cableLost := false
        window := ⟨s.cu.wheelTrack, s.cu.cableTrack, s.cfg.windowLength,
          s.cfg.windowLength * s.cfg.toleranceFactor / 256, s.cfg.confirmCount⟩
        trusted := trustedTrack s.cfg.sourceMode s.cu.agreement s.cu.wheelFault false } } : State).journal
      (.state ⟨false, false, true, false⟩ s.cu.agreement s.cu.agreement s.cu.wheelFault false)).setEventAll .state
  else { s with cu := { s.cu with silenceStart := some s.now } }

theorem State.takeReel_eq (count : Word32) (s : State) : s.takeReel count = s.found.applyReel count := by
  unfold State.takeReel State.found
  dsimp only
  split <;> rfl

@[simp] theorem State.found_cu (s : State) :
    s.found.cu = { s.cu with
      silenceStart := some s.now, cableLost := false
      window := if s.cu.cableLost then s.newWindow else s.cu.window
      trusted := if s.cu.cableLost then trustedTrack s.cfg.sourceMode s.cu.agreement s.cu.wheelFault false
        else s.cu.trusted } := by
  unfold State.found
  by_cases lost : s.cu.cableLost = true
  · simp [lost, State.newWindow]
  · rw [if_neg lost, if_neg lost, if_neg lost, ← Bool.eq_false_of_not_eq_true lost]

@[simp] theorem State.found_frame (s : State) :
    SameBase s.found s ∧ s.found.now = s.now ∧ s.found.wt = s.wt ∧ s.found.ca = s.ca ∧ s.found.fs = s.fs ∧
    s.found.ld = s.ld ∧ s.found.sq = s.sq ∧ s.found.hc = s.hc ∧ OnlyRecords s.found s ∧ OnlyLatches s.found s ∧
    s.found.li = s.li ∧ s.found.sp = s.sp := by
  unfold State.found
  split <;> simp

/-- An UNSEEDED reel is seeded (R5). -/
theorem State.applyReel_seeds {s : State} (count : Word32) (unseeded : s.cu.reelSeed = none) :
    s.applyReel count = { s with cu := { s.cu with reelSeed := some count } } := by
  simp only [State.applyReel, unseeded]

/-- A jump seeds the reel again and is journaled (R6). -/
theorem State.applyReel_jumps {s : State} {count last : Word32} (seed : s.cu.reelSeed = some last)
    (jump : s.cfg.reelJumpLimit < (count - last).toInt.natAbs) :
    s.applyReel count =
      (({ s with cu := { s.cu with reelSeed := some count } } : State).journal
        (.state ⟨false, false, false, true⟩ s.cu.agreement s.cu.agreement s.cu.wheelFault s.cu.cableLost)).setEventAll
          .state := by
  simp only [State.applyReel, seed, jump, if_true]
  rfl

/-- A report within the jump limit passes its whole millimetres to the cable track (R7, R16). -/
theorem State.applyReel_moves {s : State} {count last : Word32} (seed : s.cu.reelSeed = some last)
    (near : (count - last).toInt.natAbs ≤ s.cfg.reelJumpLimit) :
    let sum := s.cu.cableResidual + (count - last).toInt * s.cfg.reelScale
    let mm := sum.tdiv 1000
    let crossed := ({ s with cu := { s.cu with
      reelSeed := some count
      cableResidual := sum - 1000 * mm, cableTrack := s.cu.cableTrack + BitVec.ofInt 32 mm } } : State).tracked
        (decide (s.cu.trusted = .cable ∧ mm ≠ 0)) mm
    s.applyReel count = if mm = 0 then crossed else crossed.testWindow := by
  unfold State.applyReel
  rw [seed]
  dsimp only
  rw [if_neg (by omega)]
  generalize s.cu.cableResidual + _ = sum
  rw [tmod_eq]
  by_cases whole : sum.tdiv 1000 = 0
  · simp [whole, State.tracked_false]
  · simp only [whole, ne_eq, not_false_eq_true, and_true, if_false, State.cableIncrement_eq]

theorem exec_reelReport {b0 b1 b2 b3 : Byte} {s : State} (running : s.resetLine = false) :
    exec (.reelReport .surface [b0, b1, b2, b3]) s =
      .next ((s.heard .surface).found.applyReel (word b0 b1 b2 b3)) := by
  rw [← State.takeReel_eq]
  exact congrArg Host.Outcome.next (State.request_reel running)

/-- Hearing a frame leaves what a reel report reads. -/
theorem State.heard_reel (s : State) :
    (s.heard .surface).cu = s.cu ∧ (s.heard .surface).cfg = s.cfg ∧ (s.heard .surface).now = s.now := by simp

/-- Settles O22. -/
theorem reelReportSeedsOrIsAJump : Obligations.ReelReportSeedsOrIsAJump := by
  intro b0 b1 b2 b3 s running count h found seeded
  obtain ⟨cu, cfg, now⟩ := State.heard_reel s
  have same : h.found = found := by
    unfold State.found
    simp only [found, h, cu, cfg, now]
  have flags : found.cu.agreement = s.cu.agreement ∧ found.cu.wheelFault = s.cu.wheelFault ∧
      found.cu.cableLost = false := by
    rw [← same]
    simp [h]
  obtain ⟨agreement, wheelFault, lost⟩ := flags
  refine ⟨fun unseeded => ?_, fun last seed jump => ?_⟩
  · rw [exec_reelReport running, State.applyReel_seeds _ (by simpa using unseeded), same]
  · rw [exec_reelReport running, State.applyReel_jumps (by simpa using seed) (by simpa using jump), same,
      agreement, wheelFault, lost]

/-- R47's pair of sides, met by an armed slot. -/
theorem Slot.crossed_armed_iff (c : Int) (e : Waypoint) (side : Side) :
    let now := sideOf c e.point
    if (side = .below ∧ now = .above ∧ e.sense ≠ .falling) ∨
        (side = .above ∧ now = .below ∧ e.sense ≠ .rising) then
      (Slot.armed e side).crossed c = (afterFiring e c).1
    else (Slot.armed e side).crossed c = .armed e now := by
  intro now
  rw [Slot.crossed_armed]
  split
  · next fired => exact if_pos ((fires_iff _ _ _).mpr fired)
  · next held => exact if_neg (mt (fires_iff _ _ _).mp held)

/-- Settles O23. -/
theorem reelReportAppliesItsDelta : Obligations.ReelReportAppliesItsDelta := by
  intro b0 b1 b2 b3 last s running short seed count delta sum mm target c h found advances moved crossed near
  obtain ⟨cu, cfg, now⟩ := State.heard_reel s
  have same : h.found = found := by
    unfold State.found
    simp only [found, h, cu, cfg, now]
  have kept : found.cu.cableResidual = s.cu.cableResidual ∧ found.cu.cableTrack = s.cu.cableTrack ∧
      found.cu.chainage = s.cu.chainage ∧ found.cu.sat = s.cu.sat ∧ found.cfg = s.cfg ∧
      found.cu.reelSeed = s.cu.reelSeed := by
    rw [← same]
    simp [h]
  obtain ⟨residual, track, chainage, sat, settings, seeds⟩ := kept
  have tracks : crossed = ({ found with cu := { found.cu with
      reelSeed := some count
      cableResidual := sum - 1000 * mm, cableTrack := s.cu.cableTrack + BitVec.ofInt 32 mm } } : State).tracked
        advances mm := by
    unfold State.tracked
    simp only [crossed, moved, chainage, sat]
    rfl
  have step : h.found.applyReel count = if mm = 0 then crossed else crossed.testWindow := by
    rw [same, State.applyReel_moves (seeds.trans seed) (by rw [settings]; exact near)]
    simp only [residual, settings, track, tracks]
    rfl
  have short' : (sum - 1000 * mm).natAbs ≤ 999 := tmod_eq sum ▸ residual_le sum
  refine ⟨h.found.applyReel count, exec_reelReport running, step, ?_⟩
  have met (i : Fin 16) : (if mm = 0 then crossed else crossed.testWindow).slot i =
      if advances && decide (c ≠ s.cu.chainage) then (s.slot i).crossed c else s.slot i := by
    have cell : found.slot i = s.slot i := State.slot_congr (by rw [← same]; simp [h]) i
    rw [State.tested_slot, tracks, State.tracked_slot, ← cell]
    simp only [chainage]
    rfl
  rw [tracks] at met
  rw [step, tracks]
  refine ⟨by simp, by simp [← same, h], by simp [← same], by simp, by simpa using short', by simp,
    fun cable moves => ⟨?_, ?_, fun turned i => ?_⟩, fun still => ?_, ?_⟩
  · simp [advances, cable, moves, chainage]
    rfl
  · simp [advances, cable, moves, chainage, sat, target]
  · have on : advances = true := decide_eq_true ⟨cable, moves⟩
    rw [met i, on, Bool.true_and, if_pos (decide_eq_true turned)]
    cases State.slot i s with
    | armed e side => exact Slot.crossed_armed_iff c e side
    | free => rfl
    | spent e => rfl
  · have off : advances = false := decide_eq_false (by tauto)
    simp [off, State.tracked_false, ← same, h]
  · simp [← same, h]

/-! ### The silence (R8, R15) -/

theorem exec_reelSilenceExpiry {s : State} (running : s.resetLine = false) :
    exec .reelSilenceExpiry s = .next s.expireSilence :=
  congrArg Host.Outcome.next (State.whenRunning_running _ running)

/-- Settles O24. -/
theorem silenceSetsCableLostAndTrustFollowsItsTable : Obligations.SilenceSetsCableLostAndTrustFollowsItsTable := by
  refine ⟨fun s running => ⟨fun stopped => ?_, fun start runs => ?_⟩,
    fun agreement wheelFault cableLost => ⟨?_, rfl, rfl⟩⟩
  · rw [exec_reelSilenceExpiry running, State.expireSilence, stopped]
  · rw [exec_reelSilenceExpiry running, State.expireSilence, runs]
    dsimp only
    rw [State.loseCable_eq, State.loseCable_cu]
    rfl
  · cases agreement <;> cases wheelFault <;> rfl

end Sys2Proof.Machine
end

section
/-! The halt sequence whole (R114, R124 to R130, R132) and the velocity gate (R20, R127, R128). -/

namespace Sys2Proof.Machine

/-! ### The sequence's state -/

/-- A sequence that goes on moves nothing but itself: the DHALT level and the dwell count stand. -/
theorem State.setSeq_going {q₀ : HaltSeq} {s : State} (going : s.hc.seq = some q₀) (q : HaltSeq) :
    s.setSeq (some q) = { s with hc := { s.hc with seq := some q } } := by
  simp [State.setSeq, State.setHalt, going, HaltController.dhalt]

/-- A sequence that starts wakes the lamps, and raises DHALT unless a link halt has (R114, R132). -/
theorem State.setSeq_starts {s : State} (idle : s.hc.seq = none) (q : HaltSeq) :
    let asked : State := { s with
      hc := { s.hc with seq := some q }
      ld := { s.ld with standstill := none, dwell := false } }
    s.setSeq (some q) = if s.hc.linkHalt then asked else asked.setEvent .drive .halt := by
  cases lost : s.hc.linkHalt with
  | true => simp [State.setSeq, State.setHalt, idle, HaltController.dhalt, lost, State.wake]
  | false =>
    simp only [State.setSeq, State.setHalt, idle, HaltController.dhalt, lost, State.wake]
    rfl

/-! ### The velocity gate -/

theorem exec_runClockTick {s : State} (running : s.resetLine = false) :
    exec .runClockTick s = .next s.tickClock :=
  congrArg Host.Outcome.next (State.whenRunning_running _ running)

theorem exec_velocityGate {s : State} (running : s.resetLine = false) :
    exec .velocityGate s = .next s.takeGate :=
  congrArg Host.Outcome.next (State.whenRunning_running _ running)

/-- What a gate does to the dwell count (R114). -/
theorem State.dwellAtGate_eq (old : Int) (s : State) :
    s.dwellAtGate old = { s with ld := { s.ld with
      dwell := s.ld.dwell && decide (s.cu.velocity = 0)
      standstill :=
        if s.cu.velocity ≠ 0 then none
        else if old = 0 then s.ld.standstill
        else if s.hc.seq = none then some s.now
        else none } } := by
  unfold State.dwellAtGate State.wake State.startStandstill
  by_cases still : s.cu.velocity = 0
  · by_cases stood : old = 0 <;> simp [still, stood]
  · simp [still]

theorem State.haltAtGate_idle {s : State} (idle : s.hc.seq = none) : s.haltAtGate = s := by
  simp only [State.haltAtGate, idle]

/-- Settles O25. -/
theorem gateGivesTheVelocity : Obligations.GateGivesTheVelocity := by
  intro s running
  refine ⟨exec_runClockTick running, fun oldest rest history => ?_⟩
  intro x v gated
  have taken : s.takeGate = gated.haltAtGate := by
    unfold State.takeGate
    dsimp only
    rw [State.dwellAtGate_eq]
    simp only [State.reach, State.gate, history]
    rfl
  exact ⟨(exec_velocityGate running).trans (congrArg _ taken), fun idle => State.haltAtGate_idle idle⟩

/-! ### A gate in a halt sequence -/

/-- A sequence that is SETTLING stands: its record, and its still at the head of the queue (R128). -/
theorem State.reachStanding_eq {q₀ : HaltSeq} {s : State} (going : s.hc.seq = some q₀) (q : HaltSeq) :
    let stood : HaltSeq := { q with
      state := .standing, haltDue := none, settle := .stopped
      stillMark := if q.kind = .haltStill then .queued else .none }
    let t : State := ({ s with hc := { s.hc with seq := some stood } }).journal (.halt .standing q.kind q.origin none)
    s.reachStanding q = if q.kind = .haltStill then t.insertHaltStill false else t := by
  unfold State.reachStanding
  simp only [State.setSeq_going going, HaltSeq.record]
  cases q.kind <;> rfl

/-- The settle timer of a sequence, by the settle time (R127). -/
theorem State.startSettle_counts {q : HaltSeq} {s : State} (going : s.hc.seq = some q) (counts : s.cfg.settleTime ≠ 0) :
    s.startSettle q = { s with hc := { s.hc with
      seq := some { q with settle := .running (s.now + 2000 * s.cfg.settleTime) } } } := by
  rw [State.startSettle, if_neg counts, State.setSeq_going going]
  rfl

/-- At a standstill in SETTLING a timer that does not run starts (R127). -/
theorem State.haltAtGate_settles {q : HaltSeq} {s : State} (going : s.hc.seq = some q) (settles : q.state = .settling)
    (still : s.cu.velocity = 0) (waits : ∀ due, q.settle ≠ .running due) : s.haltAtGate = s.startSettle q := by
  simp only [State.haltAtGate, going, settles, still, ne_eq, not_true_eq_false, if_false]

/-- Settles O26. -/
theorem gateMovesTheHaltSequence : Obligations.GateMovesTheHaltSequence := by
  intro q s going
  refine ⟨fun asked => ?_, fun settles moves => ?_, fun settles still due runs => ?_,
    fun settles still waits => ⟨?_, ?_⟩, fun stands kept => ?_, fun stands moves first => ?_⟩
  · simp only [State.haltAtGate, going, asked]
  · simp only [State.haltAtGate, going, settles]
    rw [if_pos moves, State.setSeq_going going]
  · simp only [State.haltAtGate, going, settles, still, runs]
    simp
  · exact fun counts => (State.haltAtGate_settles going settles still waits).trans
      (State.startSettle_counts going counts)
  · intro at_once stood t
    rw [State.haltAtGate_settles going settles still waits, State.startSettle, if_pos at_once]
    exact State.reachStanding_eq going q
  · simp only [State.haltAtGate, going, stands]
    exact if_neg fun ⟨moves, first⟩ => kept.elim moves (by simp [first])
  · simp only [State.haltAtGate, going, stands]
    rw [if_pos ⟨moves, first⟩, State.setSeq_going going]
    rfl

end Sys2Proof.Machine
end

section
/-! Requests on the waypoint table (R42 to R46). -/

namespace Sys2Proof.Machine

/-! ### The payload of a PLACE -/

theorem half_le16 (x : Half) : half (x.extractLsb' 0 8) (x.extractLsb' 8 8) = x := by
  apply BitVec.eq_of_toNat_eq
  rw [half_toNat]
  simp only [BitVec.extractLsb'_toNat, Nat.shiftRight_eq_div_pow]
  omega

theorem word_le32 (x : Word32) :
    word (x.extractLsb' 0 8) (x.extractLsb' 8 8) (x.extractLsb' 16 8) (x.extractLsb' 24 8) = x := by
  apply BitVec.eq_of_toNat_eq
  rw [word_toNat]
  simp only [BitVec.extractLsb'_toNat, Nat.shiftRight_eq_div_pow]
  omega

theorem nibble_bits : ∀ b₀ b₁ b₂ b₃ : Bool,
    let bits := BitVec.ofNat 4 (b₀.toNat + 2 * b₁.toNat + 4 * b₂.toNat + 8 * b₃.toNat)
    bits.getLsbD 0 = b₀ ∧ bits.getLsbD 1 = b₁ ∧ bits.getLsbD 2 = b₂ ∧ bits.getLsbD 3 = b₃ := by decide

/-- A mask of four presence bits, whatever its unassigned bits (R186). -/
theorem presence_bits (unassigned : BitVec 4) (b₀ b₁ b₂ b₃ : Bool) :
    let mask : Byte := unassigned ++ BitVec.ofNat 4 (b₀.toNat + 2 * b₁.toNat + 4 * b₂.toNat + 8 * b₃.toNat)
    mask.getLsbD 0 = b₀ ∧ mask.getLsbD 1 = b₁ ∧ mask.getLsbD 2 = b₂ ∧ mask.getLsbD 3 = b₃ := by
  simp only [BitVec.getLsbD_append]
  exact nibble_bits b₀ b₁ b₂ b₃

theorem takeU8_built (x : Option Byte) (rest : List Byte) :
    takeU8 x.isSome ((x.map fun b => [b]).getD [] ++ rest) = some (x, rest) := by
  cases x <;> rfl

theorem takeU16_built (x : Option Half) (rest : List Byte) :
    takeU16 x.isSome ((x.map le16).getD [] ++ rest) = some (x, rest) := by
  cases x with
  | none => rfl
  | some x => simp [takeU16, le16, half_le16]

theorem takeU32_built (x : Option Word32) (rest : List Byte) :
    takeU32 x.isSome ((x.map le32).getD [] ++ rest) = some (x, rest) := by
  cases x with
  | none => rfl
  | some x => simp [takeU32, le32, word_le32]

/-- A built payload is read back as it was built. -/
theorem parsePlace_built (slot sense action : Byte) (point : Word32) (preset : Option Byte) (code : Option Half)
    (interval : Option Word32) (remaining : Option Half) (unassigned : BitVec 4) :
    parsePlace (slot :: (unassigned ++ BitVec.ofNat 4 (preset.isSome.toNat + 2 * code.isSome.toNat +
      4 * interval.isSome.toNat + 8 * remaining.isSome.toNat) : Byte) :: (le32 point ++ (sense :: action ::
        ((preset.map fun x => [x]).getD [] ++ (code.map le16).getD [] ++ (interval.map le32).getD [] ++
          (remaining.map le16).getD [])))) =
      some ⟨slot, point.toInt, sense, action, preset, code, interval.map BitVec.toNat,
        remaining.map BitVec.toNat⟩ := by
  obtain ⟨bit0, bit1, bit2, bit3⟩ :=
    presence_bits unassigned preset.isSome code.isSome interval.isSome remaining.isSome
  have last := takeU16_built remaining []
  rw [List.append_nil] at last
  simp only [le32, List.cons_append, List.nil_append, parsePlace, List.append_assoc, bit0, bit1, bit2, bit3,
    takeU8_built, takeU16_built, takeU32_built, last, word_le32]

/-! ### The arguments of R42 -/

theorem Sense.ofCode_eq_some {n : Nat} {sense : Sense} (h : Sense.ofCode n = some sense) : sense.code = n := by
  unfold Sense.ofCode at h
  split at h <;> cases h <;> rfl

theorem Sense.ofCode_isSome (n : Nat) : (Sense.ofCode n).isSome ↔ n ≤ 2 := by
  rcases n with _ | _ | _ | n <;> simp [Sense.ofCode]

theorem placeAction_eq_some {n : Nat} {preset : Option Byte} {action : Action}
    (h : placeAction n preset = some action) :
    action.code = n ∧ ∀ k, action = .preset k → preset = some (BitVec.ofNat 8 k.val) := by
  unfold placeAction at h
  split at h
  case h_5 k =>
    obtain ⟨i, fits, rfl⟩ := Option.map_eq_some_iff.mp h
    refine ⟨rfl, fun j same => ?_⟩
    cases same
    unfold fin4? at fits
    split at fits
    · cases fits
      simp
    · cases fits
  all_goals cases h
  all_goals exact ⟨rfl, fun k same => nomatch same⟩

theorem placeAction_isSome (n : Nat) (preset : Option Byte) :
    (placeAction n preset).isSome ↔
      n ≤ 4 ∧ (n = 4 → ∃ k, preset = some k ∧ k.toNat ≤ 3) ∧ (n ≠ 4 → preset = none) := by
  have small (k : Byte) : (fin4? k.toNat).isSome ↔ k.toNat ≤ 3 := by
    unfold fin4?
    split <;> simp <;> omega
  rcases n with _ | _ | _ | _ | _ | n <;> cases preset <;> simp [placeAction, small]

theorem placeRepeatOk_iff (sense : Sense) (interval remaining : Option Nat) :
    placeRepeatOk sense interval remaining = true ↔
      (∀ i, interval = some i → 10 ≤ i ∧ i ≤ 100000 ∧ sense ≠ .both) ∧
      (∀ r, remaining = some r → interval ≠ none ∧ r ≠ 0) := by
  cases interval <;> cases remaining <;> simp [placeRepeatOk, and_assoc]

/-- What R42 asks of the arguments but the slot number. -/
def PlaceArgs.valid (a : PlaceArgs) : Prop :=
  -100000 ≤ a.point ∧ a.point ≤ 3000000 ∧ a.sense.toNat ≤ 2 ∧ a.action.toNat ≤ 4 ∧
  (a.action.toNat = 4 → ∃ k, a.preset = some k ∧ k.toNat ≤ 3) ∧ (a.action.toNat ≠ 4 → a.preset = none) ∧
  (∀ i, a.interval = some i → 10 ≤ i ∧ i ≤ 100000 ∧ a.sense.toNat ≠ 2) ∧
  (∀ r, a.remaining = some r → a.interval ≠ none ∧ r ≠ 0)

theorem placeEntry_isSome (p : Port) (a : PlaceArgs) : (placeEntry p a).isSome ↔ a.valid := by
  have senses := Sense.ofCode_isSome a.sense.toNat
  have actions := placeAction_isSome a.action.toNat a.preset
  unfold placeEntry PlaceArgs.valid
  cases sensed : Sense.ofCode a.sense.toNat with
  | none =>
    rw [sensed] at senses
    simp at senses ⊢
    omega
  | some sense =>
    have coded := Sense.ofCode_eq_some sensed
    have both : sense ≠ .both ↔ a.sense.toNat ≠ 2 := by
      rw [← coded]
      cases sense <;> decide
    rw [sensed] at senses
    cases acted : placeAction a.action.toNat a.preset with
    | none =>
      rw [acted] at actions
      simp only [Option.isSome_none, Bool.false_eq_true, false_iff] at actions ⊢
      exact fun ⟨_, _, _, small, given, absent, _⟩ => actions ⟨small, given, absent⟩
    | some action =>
      rw [acted] at actions
      obtain ⟨small, given, absent⟩ := actions.mp rfl
      have repeats := placeRepeatOk_iff sense a.interval a.remaining
      simp only [both] at repeats
      dsimp only
      split
      · next fits =>
        obtain ⟨low, high, ok⟩ := fits
        exact iff_of_true rfl
          ⟨low, high, senses.mp rfl, small, given, absent, (repeats.mp ok).1, (repeats.mp ok).2⟩
      · next unfit =>
        refine iff_of_false (by simp) fun ⟨low, high, _, _, _, _, every, left⟩ => ?_
        exact unfit ⟨low, high, repeats.mpr ⟨every, left⟩⟩

theorem placeEntry_fields {p : Port} {a : PlaceArgs} {e : Waypoint} (h : placeEntry p a = some e) :
    e.owner = p ∧ e.point = a.point ∧ e.sense.code = a.sense.toNat ∧ e.action.code = a.action.toNat ∧
    (∀ k, e.action = .preset k → a.preset = some (BitVec.ofNat 8 k.val)) ∧ e.code = a.code ∧
    e.interval = a.interval ∧ e.remaining = a.remaining := by
  unfold placeEntry at h
  split at h
  · next sense action sensed acted =>
    split at h
    · cases h
      exact ⟨rfl, rfl, Sense.ofCode_eq_some sensed, (placeAction_eq_some acted).1, (placeAction_eq_some acted).2,
        rfl, rfl, rfl⟩
    · cases h
  · cases h

/-! ### The slot of R43 -/

theorem fin16?_val (i : Fin 16) : fin16? i.val = some i := by
  simp [fin16?]

theorem fin16?_none {n : Nat} (h : 16 ≤ n) : fin16? n = none := by
  simp [fin16?, h]

theorem mayTake_iff (p : Port) (x : Slot) :
    mayTake p x = true ↔ ∀ e side, x = .armed e side → p = .surface ∨ e.owner = p := by
  cases x <;> simp [mayTake]

/-- ANY finds the lowest-numbered slot that passes. -/
theorem find_slotNumbers {test : Fin 16 → Bool} {i : Fin 16} (passes : test i = true)
    (first : ∀ j, j < i → test j = false) : slotNumbers.find? test = some i := by
  have cut : ∀ i : Fin 16, slotNumbers = slotNumbers.take i ++ i :: slotNumbers.drop (i + 1) := by decide
  have below : ∀ i : Fin 16, ∀ j ∈ slotNumbers.take i, j < i := by decide
  refine List.find?_eq_some_iff_append.mpr ⟨passes, _, _, cut i, fun j before => ?_⟩
  rw [first j (below i j before)]
  rfl

/-! ### PLACE (R42, R43) -/

/-- A request on the table acts on the table that stands: hearing a frame leaves it and the chainage. -/
@[simp] theorem State.heard_slot (p : Port) (s : State) (i : Fin 16) : (s.heard p).slot i = s.slot i :=
  State.slot_congr (by simp) i

theorem built_valid_iff (slot sense action : Byte) (point : Word32) (preset : Option Byte) (code : Option Half)
    (interval : Option Word32) (remaining : Option Half) :
    (⟨slot, point.toInt, sense, action, preset, code, interval.map BitVec.toNat,
      remaining.map BitVec.toNat⟩ : PlaceArgs).valid ↔
      -100000 ≤ point.toInt ∧ point.toInt ≤ 3000000 ∧ sense.toNat ≤ 2 ∧ action.toNat ≤ 4 ∧
      (action = 4 → ∃ k, preset = some k ∧ k.toNat ≤ 3) ∧ (action ≠ 4 → preset = none) ∧
      (∀ i, interval = some i → 10 ≤ i.toNat ∧ i.toNat ≤ 100000 ∧ sense ≠ 2) ∧
      (∀ r, remaining = some r → interval ≠ none ∧ r ≠ 0) := by
  have four : action.toNat = 4 ↔ action = 4 := BitVec.toNat_inj (y := 4#8)
  have two : sense.toNat = 2 ↔ sense = 2 := BitVec.toNat_inj (y := 2#8)
  have zero (r : Half) : r.toNat = 0 ↔ r = 0 := BitVec.toNat_inj (y := 0#16)
  unfold PlaceArgs.valid
  simp only [ne_eq, four, two]
  cases interval <;> cases remaining <;> simp [zero]

/-- Where a PLACE that passes R42 goes (R43). -/
theorem actPlace_valid {p : Port} {a : PlaceArgs} (slot : a.slot.toNat < 16 ∨ a.slot = 0xFF) (valid : a.valid) (s : State) :
    ∃ e : Waypoint, placeEntry p a = some e ∧
      (∀ i, s.choosePlace p a.slot = .ok i → actPlace p a s = (s.setSlot i (.armed e (sideOf s.cu.chainage e.point)),
        ⟨.ok, u8 i.val ++ u8 (sideOf s.cu.chainage e.point).code⟩)) ∧
      (∀ status, s.choosePlace p a.slot = .error status → actPlace p a s = (s, bare status)) := by
  obtain ⟨e, entry⟩ := Option.isSome_iff_exists.mp ((placeEntry_isSome p a).mpr valid)
  have numbered : ¬ (a.slot ≠ anySlot ∧ 16 ≤ a.slot.toNat) := fun ⟨named, large⟩ =>
    slot.elim (fun small => absurd small (Nat.not_lt.mpr large)) named
  refine ⟨e, entry, fun i chosen => ?_, fun status refused => ?_⟩
  · simp only [actPlace, if_neg numbered, entry, chosen]
  · simp only [actPlace, if_neg numbered, entry, refused]

theorem actPlace_invalid {p : Port} {a : PlaceArgs} (invalid : ¬ ((a.slot.toNat < 16 ∨ a.slot = 0xFF) ∧ a.valid))
    (s : State) : actPlace p a s = (s, bare .range) := by
  unfold actPlace
  split
  · rfl
  · next named =>
    have unfit : ¬ a.valid := fun valid => invalid ⟨by
      by_cases any : a.slot = anySlot
      · exact .inr any
      · exact .inl (Nat.lt_of_not_le fun large => named ⟨any, large⟩), valid⟩
    rw [Option.not_isSome_iff_eq_none.mp (mt (placeEntry_isSome p a).mp unfit)]

/-- A slot that ANY may take (R43). -/
def Slot.isOpen : Slot → Bool
  | .armed .. => false
  | _ => true

theorem Slot.isOpen_iff (x : Slot) : x.isOpen = true ↔ ∀ e side, x ≠ .armed e side := by
  cases x <;> simp [Slot.isOpen]

theorem State.openSlot_eq (s : State) : s.openSlot = slotNumbers.find? fun i => (s.slot i).isOpen := rfl

/-- Settles O27. -/
theorem waypointPlaceArmsTheSlot : Obligations.WaypointPlaceArmsTheSlot := by
  intro p slot sense action point preset code interval remaining unassigned s mask args valid h side mine open_
    armed accepted
  have taken : exec (.waypointPlace p args) s = .next (State.answeredWith p 0x18 (actPlace p
      ⟨slot, point.toInt, sense, action, preset, code, interval.map BitVec.toNat, remaining.map BitVec.toNat⟩ h)) :=
    congrArg Host.Outcome.next (State.request_acts accepted (fun _ => by decide) rfl
      (parsePlace_built slot sense action point preset code interval remaining unassigned))
  have passes : valid ↔ (slot.toNat < 16 ∨ slot = 0xFF) ∧ PlaceArgs.valid ⟨slot, point.toInt, sense, action, preset,
      code, interval.map BitVec.toNat, remaining.map BitVec.toNat⟩ :=
    and_congr_right fun _ => (built_valid_iff slot sense action point preset code interval remaining).symm
  have arms {i : Fin 16} (v : valid) (chosen : h.choosePlace p slot = .ok i) : armed i := by
    obtain ⟨e, entry, acts, -⟩ := actPlace_valid (p := p) (passes.mp v).1 (passes.mp v).2 h
    obtain ⟨owner, at_, senses, actions, presets, codes, intervals, remainings⟩ := placeEntry_fields entry
    refine ⟨e, owner, at_, senses, actions, presets, codes, intervals, remainings, ?_⟩
    have where_ : sideOf h.cu.chainage e.point = side := by
      rw [at_]
      simp [h, sideOf, side]
    rw [taken, acts i chosen, where_]
    cases side <;> rfl
  have refuses {status : Status} (v : valid) (refused : h.choosePlace p slot = .error status) :
      exec (.waypointPlace p args) s = .next (h.answered p 0x18 status []) := by
    obtain ⟨e, _, -, acts⟩ := actPlace_valid (p := p) (passes.mp v).1 (passes.mp v).2 h
    rw [taken, acts status refused]
    rfl
  have numbered {i : Fin 16} (number : slot.toNat = i.val) :
      h.choosePlace p slot = if mayTake p (s.slot i) then .ok i else .error .owner := by
    have named : slot ≠ anySlot := by
      rintro rfl
      have := i.isLt
      have : anySlot.toNat = 255 := rfl
      omega
    simp only [State.choosePlace, if_neg named, number, fin16?_val, h, State.heard_slot]
  refine ⟨fun invalid => ?_, fun v i number free => ?_, fun v i number taken_ => ?_, fun v any i open_i first => ?_,
    fun v any full => ?_⟩
  · rw [taken, actPlace_invalid (mt passes.mpr invalid)]
    rfl
  · exact arms v ((numbered number).trans (if_pos ((mayTake_iff p _).mpr free)))
  · exact refuses v ((numbered number).trans (if_neg (mt (mayTake_iff p _).mp taken_)))
  · have found : h.openSlot = some i := by
      refine State.openSlot_eq h ▸ find_slotNumbers ((Slot.isOpen_iff _).mpr (fun e sd => ?_)) fun j before => ?_
      · simpa [h] using open_i e sd
      · refine Bool.eq_false_of_not_eq_true fun opens => first j before fun e sd => ?_
        simpa [h] using (Slot.isOpen_iff _).mp opens e sd
    exact arms v (by simp only [State.choosePlace, any, anySlot, if_true, found])
  · have found : h.openSlot = none := by
      refine State.openSlot_eq h ▸ List.find?_eq_none.mpr fun i _ opens => full i fun e sd => ?_
      simpa [h] using (Slot.isOpen_iff _).mp opens e sd
    exact refuses v (by simp only [State.choosePlace, any, anySlot, if_true, found])

/-! ### CLEAR and READ (R45, R46) -/

theorem exec_waypointClear {p : Port} {n : Byte} {s : State} (h : s.accepts p 0x19 [n]) :
    exec (.waypointClear p [n]) s = .next (State.answeredWith p 0x19 (actClear p n (s.heard p))) :=
  congrArg Host.Outcome.next (State.request_acts h (fun _ => by decide) rfl rfl)

theorem exec_waypointRead {p : Port} {n : Byte} {s : State} (h : s.accepts p 0x1A [n]) :
    exec (.waypointRead p [n]) s = .next (State.answeredWith p 0x1A (actRead p n (s.heard p))) :=
  congrArg Host.Outcome.next (State.request_acts h (fun _ => by decide) rfl rfl)

/-- Settles O28. -/
theorem waypointClearFreesAndReadShows : Obligations.WaypointClearFreesAndReadShows := by
  intro p n s h optional entry
  have shows (e : Waypoint) : e.bytes = entry e := by
    cases e with
    | mk owner point sense action code interval remaining =>
      cases action <;> cases code <;> cases interval <;> cases remaining <;> rfl
  refine ⟨fun large => ⟨fun accepted => ?_, fun accepted => ?_⟩, fun i number =>
    ⟨fun accepted => ⟨fun mine => ?_, fun e side armed other foreign => ?_⟩, fun accepted => ?_⟩⟩
  · rw [exec_waypointClear accepted, actClear, fin16?_none large]
    rfl
  · rw [exec_waypointRead accepted, actRead, fin16?_none large]
    rfl
  · rw [exec_waypointClear accepted, actClear, number, fin16?_val]
    simp only [State.heard_slot, (mayTake_iff p _).mpr mine, if_true]
    have same : u8 i.val = [n] := by simp [← number, u8]
    rw [same]
    rfl
  · have refused : mayTake p (s.slot i) = false := by simp [armed, mayTake, other, foreign]
    rw [exec_waypointClear accepted, actClear, number, fin16?_val]
    simp only [State.heard_slot, refused]
    rfl
  · rw [exec_waypointRead accepted, actRead, number, fin16?_val]
    simp only [State.heard_slot]
    cases s.slot i with
    | free => rfl
    | armed e side =>
      simp only [Slot.bytes, shows]
      cases side <;> rfl
    | spent e =>
      simp only [Slot.bytes, shows]
      rfl

end Sys2Proof.Machine
end

section
/-! Firing (R47 to R56): the advance of a repeating entry, and the action of a firing. -/

namespace Sys2Proof.Machine

/-! ### The advance (R49 to R51) -/

theorem ceilDiv_le_iff {k interval : Nat} (positive : 1 ≤ interval) (m : Nat) :
    ceilDiv k interval ≤ m ↔ k ≤ interval * m := by
  rw [ceilDiv, ← Nat.lt_succ_iff, Nat.div_lt_iff_lt_mul positive, Nat.succ_mul, Nat.mul_comm m]
  omega

theorem div_succ_le_iff {k interval : Nat} (positive : 1 ≤ interval) (m : Nat) :
    k / interval + 1 ≤ m ↔ k < interval * m := by
  rw [Nat.succ_le_iff, Nat.div_lt_iff_lt_mul positive, Nat.mul_comm]

/-- The n of a rise is the least that puts the point above the chainage. -/
theorem rise_least {point c : Int} {interval : Nat} (positive : 1 ≤ interval) (reached : point ≤ c) (m : Nat) :
    (c - point).toNat / interval + 1 ≤ m ↔ c < point + interval * m := by
  rw [div_succ_le_iff positive, ← Int.ofNat_lt]
  push_cast
  omega

/-- The n of a fall is the least that puts the point at or below the chainage. -/
theorem fall_least {point c : Int} {interval : Nat} (positive : 1 ≤ interval) (passed : c < point) (m : Nat) :
    ceilDiv (point - c).toNat interval ≤ m ↔ point - interval * m ≤ c := by
  rw [ceilDiv_le_iff positive, ← Int.ofNat_le]
  push_cast
  omega

theorem afterFiring_once {e : Waypoint} (c : Int) (once : e.interval = none) : afterFiring e c = (.spent e, 1) := by
  simp only [afterFiring, once]

/-- A repeating entry after a firing, by its n, its next point and the side there. -/
theorem afterFiring_repeats {e : Waypoint} {interval : Nat} (c : Int) (repeats : e.interval = some interval) :
    afterFiring e c =
      let (n, next, side) := repeatOf e interval c
      let remaining := e.remaining.map (· - n)
      (if remaining = some 0 ∨ next < -100000 ∨ 3000000 < next then .spent { e with remaining := remaining }
        else .armed { e with point := next, remaining := remaining } side, n) := by
  simp only [afterFiring, repeats, chMin, chMax]
  split <;> rfl

theorem afterFiring_advances {e : Waypoint} {c : Int} {interval : Nat} (repeats : e.interval = some interval)
    (positive : 1 ≤ interval) (crossed : e.sense = .rising ∧ e.point ≤ c ∨ e.sense = .falling ∧ c < e.point) :
    let past : Nat → Prop := fun n =>
      if e.sense = .rising then c < e.point + interval * n else e.point - interval * n ≤ c
    ∃ n : Nat, 1 ≤ n ∧ past n ∧ (∀ m, 1 ≤ m → past m → n ≤ m) ∧ (afterFiring e c).2 = n ∧
      let next := if e.sense = .rising then e.point + interval * n else e.point - interval * n
      let remaining := e.remaining.map (· - n)
      (afterFiring e c).1 =
        if remaining = some 0 ∨ next < -100000 ∨ 3000000 < next then .spent { e with remaining := remaining }
        else .armed { e with point := next, remaining := remaining }
          (if e.sense = .rising then .below else .above) := by
  intro past
  rw [afterFiring_repeats c repeats]
  rcases crossed with ⟨sense, reached⟩ | ⟨sense, passed⟩
  · have least := rise_least positive reached
    refine ⟨(c - e.point).toNat / interval + 1, Nat.le_add_left 1 _, ?_, fun m _ beyond => ?_, ?_, ?_⟩
    · simpa only [past, sense, if_true] using (least _).mp le_rfl
    · simp only [past, sense, if_true] at beyond
      exact (least m).mpr beyond
    · simp only [repeatOf, sense]
    · simp only [repeatOf, sense, if_true]
  · have least := fall_least positive passed
    have other : Sense.falling ≠ .rising := by decide
    refine ⟨ceilDiv (e.point - c).toNat interval, ?_, ?_, fun m _ beyond => ?_, ?_, ?_⟩
    · exact Nat.one_le_iff_ne_zero.mpr fun zero => by
        have := (least 0).mp zero.le
        simp at this
        omega
    · simpa only [past, sense, other, if_false] using (least _).mp le_rfl
    · simp only [past, sense, other, if_false] at beyond
      exact (least m).mpr beyond
    · simp only [repeatOf, sense]
    · simp only [repeatOf, sense, other, if_false]

/-! ### The action (R52 to R56) -/

theorem State.crossSlot_unarmed {c : Int} {i : Fin 16} {s : State} (unarmed : ∀ e side, s.slot i ≠ .armed e side) :
    State.crossSlot c s i = s := by
  unfold State.crossSlot
  split
  · next e side slot => exact absurd slot (unarmed e side)
  · rfl

theorem State.crossSlot_armed {c : Int} {i : Fin 16} {s : State} {e : Waypoint} {side : Side}
    (slot : s.slot i = .armed e side) :
    State.crossSlot c s i =
      if fires e.sense side (sideOf c e.point) then
        (s.setSlot i (afterFiring e c).1).performAction i e (afterFiring e c).2
      else s.setSlot i (.armed e (sideOf c e.point)) := by
  simp only [State.crossSlot, slot]

/-- A HALT or HALT_STILL from IDLE starts a sequence of the entry's own (R54, R124). -/
theorem State.startHalt_eq {s : State} (idle : s.hc.seq = none) (kind : HaltKind) (origin : HaltOrigin) :
    let asked : State := { s with
      hc := ⟨some ⟨.asked, kind, origin, false, false, .none, some (s.now + 2000 * s.cfg.haltTimeout), .stopped⟩,
        s.hc.linkHalt⟩
      ld := { s.ld with standstill := none, dwell := false } }
    s.startHalt kind origin =
      (if s.hc.linkHalt then asked else asked.setEvent .drive .halt).journal (.halt .asked kind origin none) := by
  unfold State.startHalt
  simp only [State.setSeq_starts idle]
  rfl

theorem State.fireHalt_eq (i : Fin 16) (e : Waypoint) (n : Nat) (kind : HaltKind) (s : State) :
    s.fireHalt i e n kind = if s.hc.seq = none then s.startHalt kind (.waypoint i e.owner)
      else match kind with
        | .halt => s.journal (firingMark i e n true false)
        | .haltStill =>
          if s.sq.length < 4 then (s.joinStill (firingStill i e)).journal (firingMark i e n true false)
          else s.journal (firingMark i e n true true) := by
  unfold State.fireHalt
  cases s.hc.seq <;> rfl

/-- Settles O29. -/
theorem firingAdvancesPastTheChainage : Obligations.FiringAdvancesPastTheChainage := by
  refine ⟨fun e c => ⟨afterFiring_once c, fun interval repeats positive crossed =>
    afterFiring_advances repeats positive crossed⟩, fun c i s => ⟨State.crossSlot_unarmed, fun e side slot => ?_⟩⟩
  intro now fires_
  have meets := fires_iff e.sense side now
  refine ⟨fun held => ?_, fun fired_ => ?_⟩
  · exact (State.crossSlot_armed slot).trans (if_neg (mt meets.mp held))
  intro fired mark queued started
  have acts : State.crossSlot c s i = fired.performAction i e (afterFiring e c).2 :=
    (State.crossSlot_armed slot).trans (if_pos (meets.mpr fired_))
  have starts (kind : HaltKind) (idle : s.hc.seq = none) : fired.startHalt kind (.waypoint i e.owner) = started kind :=
    State.startHalt_eq (s := fired) idle _ _
  refine ⟨fun action => ?_, fun action => ?_, fun action => ?_, fun action => ?_, fun k action => ?_⟩
  · simp only [acts, State.performAction, action]
    rfl
  · simp only [acts, State.performAction, action]
    rfl
  · simp only [acts, State.performAction, action, State.fireHalt_eq]
    split
    · next idle => exact starts _ idle
    · rfl
  · simp only [acts, State.performAction, action, State.fireHalt_eq]
    split
    · next idle => exact starts _ idle
    · rfl
  · simp only [acts, State.performAction, action]
    rfl

end Sys2Proof.Machine
end

section
/-! The current arbiter: CLAIM (R62 to R64), serving (R67) and the claim timeout (R68). -/

namespace Sys2Proof.Machine

theorem exec_claimTimeout {p : Port} {s : State} (running : s.resetLine = false) :
    exec (.claimTimeout p) s = .next (s.timeOutClaim p) :=
  congrArg Host.Outcome.next (State.whenRunning_running _ running)

/-! ### The table of 4.3 -/

theorem State.takeClaim_decrease {p : Port} {x : Nat} {s : State} (fits : x + s.cfg.lampFloor ≤ s.cfg.tetherAllowance)
    (covered : x ≤ (s.ca.claims.get p).granted) :
    s.takeClaim p x = (State.serve { s with ca := { s.ca with
      claims := s.ca.claims.set p ⟨x, x, .settled⟩, queue := s.ca.queue.filter (· ≠ p) } }, .ok) := by
  simp only [State.takeClaim, Nat.not_lt.mpr fits, if_false, covered, if_true]
  rfl

theorem State.takeClaim_atOnce {p : Port} {x : Nat} {s : State} (fits : x + s.cfg.lampFloor ≤ s.cfg.tetherAllowance)
    (above : (s.ca.claims.get p).granted < x)
    (atOnce : s.ca.sag = none ∧ s.ca.queue = [] ∧ ((x - (s.ca.claims.get p).granted : Nat) : Int) ≤ s.freeCurrent) :
    s.takeClaim p x = ({ s with ca := { s.ca with claims := s.ca.claims.set p ⟨x, x, .settled⟩ } }, .ok) := by
  unfold State.takeClaim
  dsimp only
  rw [if_neg (Nat.not_lt.mpr fits), if_neg (Nat.not_le.mpr above), if_pos atOnce]
  rfl

theorem State.takeClaim_deferred {p : Port} {x : Nat} {s : State} (fits : x + s.cfg.lampFloor ≤ s.cfg.tetherAllowance)
    (above : (s.ca.claims.get p).granted < x)
    (later : ¬ (s.ca.sag = none ∧ s.ca.queue = [] ∧
      ((x - (s.ca.claims.get p).granted : Nat) : Int) ≤ s.freeCurrent)) :
    s.takeClaim p x = ({ s with ca := { s.ca with
      claims := s.ca.claims.set p
        ⟨(s.ca.claims.get p).granted, x, .pending (s.now + 2000 * s.cfg.claimTimeout)⟩
      queue := if (s.ca.claims.get p).state = .settled then s.ca.queue ++ [p] else s.ca.queue } }, .pending) := by
  unfold State.takeClaim
  dsimp only
  rw [if_neg (Nat.not_lt.mpr fits), if_neg (Nat.not_le.mpr above), if_neg later]
  cases (s.ca.claims.get p).state <;> rfl

/-! ### Serving (R67) -/

/-- Serving leaves the record of a port that does not wait. -/
theorem State.serveQueue_claim {p : Port} {q : List Port} (absent : p ∉ q) (s : State) :
    (State.serveQueue q s).ca.claims.get p = s.ca.claims.get p := by
  induction q generalizing s with
  | nil => rfl
  | cons first rest ih =>
    obtain ⟨other, later⟩ := List.ne_and_not_mem_of_not_mem_cons absent
    unfold State.serveQueue
    split
    · rw [ih later]
      simp [State.grantClaim, State.setClaim, PerPort.get_set_other _ _ (Ne.symm other)]
    · rfl

theorem State.serve_claim {p : Port} {s : State} (absent : p ∉ s.ca.queue) :
    s.serve.ca.claims.get p = s.ca.claims.get p := by
  unfold State.serve
  split
  · rfl
  · exact State.serveQueue_claim absent s

/-- Settles O31. -/
theorem claimIsTakenGrantedOrDeferred : Obligations.ClaimIsTakenGrantedOrDeferred := by
  intro p b0 b1 s accepted x h r free atOnce due fits
  have arbiter : h.ca = s.ca := by simp [h]
  have settings : h.cfg = s.cfg := by simp [h]
  have clock : h.now = s.now := by simp [h]
  have fits' : x + h.cfg.lampFloor ≤ h.cfg.tetherAllowance := by rw [settings]; exact fits
  have record : h.ca.claims.get p = r := by rw [arbiter]
  have free' : h.freeCurrent = free := by simp [State.freeCurrent, arbiter, settings, free]
  rw [exec_claim_accepted accepted, actClaim]
  refine ⟨fun covered => ?_, fun above now => ?_, fun above later => ?_⟩
  · rw [State.takeClaim_decrease fits' (by rw [record]; exact covered)]
    dsimp only
    rw [State.serve_claim (by simp), PerPort.get_set_same]
    rfl
  · rw [State.takeClaim_atOnce fits' (by rw [record]; exact above) (by rw [arbiter, free']; exact now)]
    dsimp only
    rw [PerPort.get_set_same]
    rfl
  · rw [State.takeClaim_deferred fits' (by rw [record]; exact above) (by rw [arbiter, free']; exact later)]
    dsimp only
    rw [PerPort.get_set_same, record, clock, settings]
    rfl

/-- What serving does is a matter of the queue it is given, not of the one that stands. -/
theorem State.serveQueue_queue (q x : List Port) (s : State) :
    State.serveQueue q { s with ca := { s.ca with queue := x } } = State.serveQueue q s := by
  induction q generalizing s with
  | nil => rfl
  | cons p rest ih =>
    unfold State.serveQueue
    by_cases fits : ((s.ca.claims.get p).need : Int) ≤ s.freeCurrent
    · exact (if_pos fits).trans ((ih (s.grantClaim p)).trans (if_pos fits).symm)
    · exact (if_neg fits).trans (if_neg fits).symm

/-- Settles O32. -/
theorem servingGrantsFromTheHeadAndTimeoutSettles : Obligations.ServingGrantsFromTheHeadAndTimeoutSettles := by
  refine ⟨fun s => ⟨fun nothing => ?_, fun p rest clear waits => ?_⟩,
    fun p s running => ⟨fun settled => ?_, fun due pending => ?_⟩⟩
  · unfold State.serve
    split
    · rfl
    · next clear =>
      have empty : s.ca.queue = [] := by simpa [Option.not_isSome_iff_eq_none.mp clear] using nothing
      rw [empty]
      simp only [State.serveQueue, ← empty]
  · intro r free
    have served : s.serve = State.serveQueue (p :: rest) s := by simp [State.serve, clear, waits]
    refine ⟨fun large => ?_, fun fits => ?_⟩
    · rw [served, State.serveQueue, if_neg (show ¬ ((s.ca.claims.get p).need : Int) ≤ s.freeCurrent from Int.not_le.mpr large),
        ← waits]
    · rw [served, State.serveQueue, if_pos (show ((s.ca.claims.get p).need : Int) ≤ s.freeCurrent from fits),
        ← State.serveQueue_queue rest rest]
      have clear' : (State.setEvent p .grant { s with ca := { s.ca with
          claims := s.ca.claims.set p ⟨r.requested, r.requested, .settled⟩, queue := rest } }).ca.sag.isSome =
          false := by simp [clear]
      rw [State.serve, if_neg (by rw [clear']; decide)]
      rfl
  · rw [exec_claimTimeout running, State.timeOutClaim, settled]
  · rw [exec_claimTimeout running, State.timeOutClaim, pending]
    rfl

end Sys2Proof.Machine
end

section
/-! The tether sag as the arbiter, the lamps and the frames feel it (R73, R74, R98, R116). -/

namespace Sys2Proof.Machine

theorem FrameSequencer.current_eq {fs : FrameSequencer} {older : List FrameRecord} {f : FrameRecord}
    (phase : fs.phase ≠ .none) (ring : fs.ring = older ++ [f]) : fs.current = some f := by
  simp [FrameSequencer.current, phase, ring]

/-- A change of the current frame's record changes the last of the ring (R85). -/
theorem State.updateFrame_eq {s : State} {older : List FrameRecord} {f : FrameRecord} (change : FrameRecord → FrameRecord)
    (phase : s.fs.phase ≠ .none) (ring : s.fs.ring = older ++ [f]) :
    s.updateFrame change = { s with fs := { s.fs with ring := older ++ [change f] } } := by
  unfold State.updateFrame
  rw [FrameSequencer.current_eq phase ring]
  simp [ring]

theorem exec_sagAssert {s : State} (running : s.resetLine = false) : exec .sagAssert s = .next s.acceptSag :=
  congrArg Host.Outcome.next (State.whenRunning_running _ running)

theorem exec_sagRelease {s : State} (running : s.resetLine = false) : exec .sagRelease s = .next s.acceptSagEnd :=
  congrArg Host.Outcome.next (State.whenRunning_running _ running)

theorem sagDuration_below {ms : Nat} (small : ms < 4294967296) : sagDuration ms = BitVec.ofNat 32 ms := by
  simp [sagDuration, small]

/-- Settles O33. -/
theorem sagCutsTheLampsAndItsReleaseServes : Obligations.SagCutsTheLampsAndItsReleaseServes := by
  intro s running
  rw [exec_sagAssert running, exec_sagRelease running]
  refine ⟨fun asserted => ?_, fun clear => ?_, fun clear => ⟨fun closed => ?_, fun older f opened phase ring => ?_⟩,
    fun start asserted => ⟨sagDuration ((s.now - start) / 2000), sagDuration_below, ?_⟩⟩
  · rw [State.acceptSag, if_neg asserted]
  · rw [State.acceptSagEnd, clear]
  · rw [State.acceptSag, if_pos clear, State.assertSag]
    dsimp only
    rw [if_neg (by rw [closed]; decide)]
    rfl
  · rw [State.acceptSag, if_pos clear, State.assertSag]
    dsimp only
    rw [if_pos opened, State.shed, State.updateFrame_eq (older := older) (f := f)]
    · rfl
    · exact phase
    · exact ring
  · rw [State.acceptSagEnd, asserted]
    rfl

end Sys2Proof.Machine
end

section
/-! The exposure allocation (5.5, R87 to R96) and the distribution (6.4, R109, R110), step by step. -/

namespace Sys2Proof.Machine

theorem clampNat_eq {a b : Nat} (ordered : a ≤ b) (x : Nat) : clampNat a b x = max a (min b x) := by
  unfold clampNat
  split
  · omega
  · split <;> omega

theorem le_ceilDiv_mul (x : Nat) {y : Nat} (positive : 1 ≤ y) {n : Nat} (above : n * y < x) : n < ceilDiv x y := by
  rw [← Nat.not_le, ceilDiv_le_iff positive, Nat.mul_comm]
  omega

/-! ### Distribution -/

/-- The top channel is the first of those of highest weight (R109). -/
theorem topChannel_first (w : Four Nat) :
    (∀ c, w.get c ≤ w.get (topChannel w)) ∧ ∀ c, c < topChannel w → w.get c < w.get (topChannel w) := by
  unfold topChannel
  split
  · refine ⟨fun c => ?_, fun c before => absurd before (Nat.not_lt_zero _)⟩
    fin_cases c <;> simp [Four.get] <;> omega
  split
  · constructor <;> intro c <;> fin_cases c <;> simp [Four.get] <;> omega
  split
  · constructor <;> intro c <;> fin_cases c <;> simp [Four.get] <;> omega
  · constructor <;> intro c <;> fin_cases c <;> simp [Four.get] <;> omega

/-- A channel's level before the clamp: its share, and on the top channel the remainder too (R109). -/
theorem sharesOf_get (d : Nat) (weights : Four Nat) (c : Fin 4) :
    let w := effectiveWeights weights
    let share : Fin 4 → Nat := fun c => d * w.get c / w.sum
    (sharesOf d weights).get c =
      share c + if c = topChannel w then d - (share 0 + share 1 + share 2 + share 3) else 0 := by
  intro w share
  unfold sharesOf
  dsimp only
  by_cases top : c = topChannel w
  · rw [if_pos top, ← top, Four.get_set_same, Four.get_map]
    rfl
  · rw [if_neg top, Four.get_set_other _ _ (Ne.symm top), Four.get_map]
    rfl

theorem distribute_get (d : Nat) (weights : Four Nat) (channelMax : Nat) (c : Fin 4) :
    (distribute d weights channelMax).get c = min ((sharesOf d weights).get c) channelMax :=
  Four.get_map _ _ c

/-- A channel without weight stays dark, unless every weight is 0. -/
theorem sharesOf_dark (d : Nat) {weights : Four Nat} {c : Fin 4} (dark : weights.get c = 0) (weighted : weights.sum ≠ 0) :
    (sharesOf d weights).get c = 0 := by
  have effective : effectiveWeights weights = weights := if_neg weighted
  have other : c ≠ topChannel weights := by
    rintro rfl
    have below := (topChannel_first weights).1
    simp only [dark] at below
    have := below 0
    have := below 1
    have := below 2
    have := below 3
    simp only [Four.get] at *
    simp only [Four.sum] at weighted
    omega
  rw [sharesOf_get, effective]
  simp [dark, other]

/-! ### The steps -/

theorem Allocation.products_ordered {a : Allocation} (range : a.cfg.inRange) : a.leastProduct ≤ a.largestProduct := by
  unfold Allocation.leastProduct Allocation.largestProduct
  rw [Nat.le_div_iff_mul_le (by decide)]
  exact Nat.mul_le_mul (Nat.mul_le_mul range.dMin.2.2 range.userExposure.1) range.gMax.1

theorem Allocation.target_eq {a : Allocation} (range : a.cfg.inRange) :
    a.target = max a.leastProduct (min a.largestProduct a.rawTarget) :=
  clampNat_eq (Allocation.products_ordered range) _

theorem Allocation.rawTarget_reported {a : Allocation} {m pm : Nat} (report : a.report = some (m, pm)) :
    a.rawTarget = max (pm / 2) (min (2 * pm) (pm * a.cfg.lumaTarget / max m 1)) := by
  simp only [Allocation.rawTarget, report]
  exact clampNat_eq (by omega) _

theorem Allocation.rawTarget_carried {a : Allocation} (report : a.report = none) : a.rawTarget = a.carried := by
  simp only [Allocation.rawTarget, report]

theorem Allocation.exposureCap_eq (a : Allocation) :
    a.exposureCap = max 20 (min a.cfg.userExposure (min (a.cfg.framePeriod - 2000)
      (if a.velocity = 0 then a.cfg.userExposure else a.cfg.blurLimit * 1000 / a.velocity.natAbs))) := by
  unfold Allocation.exposureCap
  dsimp only [tMin, readoutGuard]
  split <;> omega

theorem Allocation.lampCap_eq (a : Allocation) :
    let offered := min a.cfg.dMax (if a.mode = .strobe then a.allowance * a.cfg.framePeriod / (a.exposureCap + 20)
      else a.allowance)
    a.lampCap = if a.dwell && !a.still then min offered a.cfg.dwellLevel else offered := by
  unfold Allocation.lampCap
  dsimp only [strobeLead]
  rw [Nat.min_comm a.cfg.dMax]
  cases a.mode <;> rfl

theorem Allocation.lampCap_le (a : Allocation) : a.lampCap ≤ a.cfg.dMax := by
  rw [Allocation.lampCap_eq]
  split <;> omega

theorem Allocation.leastLevel_eq (a : Allocation) :
    a.leastLevel = if decide (a.mode = .off) then 1000 else a.cfg.dMin := by
  unfold Allocation.leastLevel
  cases a.mode <;> rfl

theorem Allocation.exposure_eq (a : Allocation) :
    a.exposure = if a.tooBright then max 20 (a.target / a.leastLevel) else a.exposureCap := rfl

theorem Allocation.level_eq (a : Allocation) :
    a.level = min a.lampCap (if a.tooBright then a.cfg.dMin
      else max a.cfg.dMin ((a.target + (a.exposure - 1)) / a.exposure)) := by
  unfold Allocation.level ceilDiv
  split <;> omega

theorem Allocation.lightLevel_eq (a : Allocation) :
    a.lightLevel = if decide (a.mode = .off) then 1000 else a.delivered := by
  unfold Allocation.lightLevel
  cases a.mode <;> rfl

/-- Whether the light falls short of the target and a gain must make up for it (R94). -/
def Allocation.short (a : Allocation) : Bool :=
  decide (a.lightLevel ≠ 0) && !(a.tooBright && decide (a.lightLevel = a.leastLevel)) &&
    decide (a.lightLevel * a.exposure < a.target)

theorem Allocation.gain_eq (a : Allocation) :
    let light := a.lightLevel * a.exposure
    a.gain.1 = (if a.lightLevel = 0 then a.cfg.gMax
      else if a.short then min a.cfg.gMax ((a.target * 256 + (light - 1)) / light) else 256) ∧
    a.gain.2 = (decide (a.lightLevel = 0) ||
      (a.short && decide (a.gain.1 = a.cfg.gMax) && decide (light * a.cfg.gMax / 256 < a.target))) := by
  unfold Allocation.gain Allocation.short ceilDiv
  dsimp only
  by_cases dark : a.lightLevel = 0
  · simp [dark]
  by_cases least : a.tooBright = true ∧ a.lightLevel = a.leastLevel
  · obtain ⟨bright, level⟩ := least
    rw [level] at dark
    simp [dark, bright, level]
  have notLeast : (a.tooBright && decide (a.lightLevel = a.leastLevel)) = false := by simpa using least
  by_cases enough : a.target ≤ a.lightLevel * a.exposure
  · simp [dark, least, notLeast, enough]
  · simp [dark, least, notLeast, enough, Nat.lt_of_not_le enough]

theorem Allocation.exposure_least (a : Allocation) : 20 ≤ a.exposure := by
  rw [Allocation.exposure_eq, Allocation.exposureCap_eq]
  split <;> omega

theorem Allocation.gain_bounds {a : Allocation} (range : a.cfg.inRange) : 256 ≤ a.gain.1 ∧ a.gain.1 ≤ a.cfg.gMax := by
  obtain ⟨least, -⟩ := range.gMax
  rw [(Allocation.gain_eq a).1]
  split
  · exact ⟨least, le_rfl⟩
  split
  · next lit short =>
    unfold Allocation.short at short
    simp only [Bool.and_eq_true, decide_eq_true_eq] at short
    have positive : 1 ≤ a.lightLevel * a.exposure :=
      Nat.mul_pos (Nat.pos_of_ne_zero lit) (by have := a.exposure_least; omega)
    have enough := le_ceilDiv_mul (a.target * 256) positive (n := 255) (by omega)
    unfold ceilDiv at enough
    omega
  · exact ⟨le_rfl, least⟩

theorem Allocation.levels_off {a : Allocation} (off : a.mode = .off) : a.levels = .all 0 := by
  simp only [Allocation.levels, off]

theorem Allocation.levels_lit {a : Allocation} (lit : a.mode ≠ .off) :
    a.levels = distribute a.level a.weights a.channelMax := by
  unfold Allocation.levels
  cases mode : a.mode with
  | off => exact absurd mode lit
  | strobe => rfl
  | steady => rfl

/-- Settles O35. -/
theorem allocationStaysInItsBounds : Obligations.AllocationStaysInItsBounds := by
  intro a range channel
  have dark_or (c : Fin 4) : a.levels.get c = 0 ∨
      a.levels.get c = min ((sharesOf a.level a.weights).get c) a.channelMax := by
    by_cases off : a.mode = .off
    · exact .inl (by rw [Allocation.levels_off off]; fin_cases c <;> rfl)
    · exact .inr (by rw [Allocation.levels_lit off, distribute_get])
  refine ⟨a.exposure_least, ?_, (Allocation.gain_bounds range).1, (Allocation.gain_bounds range).2, fun c => ?_, rfl,
    (delivered_le a).trans a.lampCap_le, lampCommit_le a, fun c dark weighted => ?_, ?_⟩
  · have := range.framePeriod.1
    refine (exposure_le a).trans ?_
    rw [Allocation.exposureCap_eq]
    omega
  · show a.levels.get c ≤ a.channelMax
    rcases dark_or c with zero | level <;> omega
  · show a.levels.get c = 0
    rcases dark_or c with zero | level
    · exact zero
    · rw [level, sharesOf_dark _ dark weighted, Nat.zero_min]
  intro off raw least most p tCap offered dCap nominal bright t d w share light short
  have raw_eq : a.rawTarget = raw := by
    cases report : a.report with
    | none => simp only [raw, report, Allocation.rawTarget_carried report]
    | some r => simp only [raw, report, Allocation.rawTarget_reported report]
  have p_eq : a.target = p := by
    rw [Allocation.target_eq range, raw_eq]
    rfl
  have tCap_eq : a.exposureCap = tCap := a.exposureCap_eq
  have dCap_eq : a.lampCap = dCap := by
    rw [Allocation.lampCap_eq, tCap_eq]
  have nominal_eq : a.leastLevel = nominal := a.leastLevel_eq
  have bright_eq : a.tooBright = bright := by
    rw [Allocation.tooBright, p_eq, nominal_eq, tCap_eq]
  have t_eq : a.exposure = t := by
    rw [Allocation.exposure_eq, bright_eq, p_eq, nominal_eq, tCap_eq]
  have d_eq : a.level = d := by
    rw [Allocation.level_eq, bright_eq, p_eq, dCap_eq, t_eq]
  have light_eq : a.lightLevel = light := a.lightLevel_eq
  have short_eq : a.short = short := by
    rw [Allocation.short, light_eq, bright_eq, nominal_eq, t_eq, p_eq]
  obtain ⟨gain, wants⟩ := a.gain_eq
  rw [light_eq, short_eq, t_eq, p_eq] at gain wants
  refine ⟨t_eq, fun dark => Allocation.levels_off (of_decide_eq_true dark),
    fun lit => ⟨topChannel w, (topChannel_first w).1, (topChannel_first w).2, fun c => ?_⟩, gain, ?_, ?_, rfl, ?_, ?_⟩
  · show a.levels.get c = _
    rw [Allocation.levels_lit (of_decide_eq_false lit), distribute_get, d_eq, sharesOf_get, Nat.min_comm]
    rfl
  · show a.product = _
    rw [Allocation.product, light_eq, t_eq]
    rfl
  · show a.lampCommit = _
    unfold Allocation.lampCommit
    rw [t_eq]
    cases a.mode <;> rfl
  · show decide (a.rawTarget < a.leastProduct) = _
    rw [raw_eq]
    rfl
  · show (decide (a.largestProduct < a.rawTarget) || a.gain.2) = _
    rw [raw_eq, wants, Bool.or_assoc]
    rfl

end Sys2Proof.Machine
end

section
/-! The strobe and the exposure of a frame (R78 to R81), and the lamps' requests and timers (chapter 6). -/

namespace Sys2Proof.Machine

/-! ### Strobe on, exposure start and midpoint -/

theorem exec_strobeOn {s : State} (running : s.resetLine = false) : exec .strobeOn s = .next s.takeStrobe :=
  congrArg Host.Outcome.next (State.whenRunning_running _ running)

theorem exec_exposureStart {s : State} (running : s.resetLine = false) : exec .exposureStart s = .next s.takeExposure :=
  congrArg Host.Outcome.next (State.whenRunning_running _ running)

theorem exec_midpointCapture {s : State} (running : s.resetLine = false) :
    exec .midpointCapture s = .next s.takeMidpoint :=
  congrArg Host.Outcome.next (State.whenRunning_running _ running)

/-- The frame's record flagged SHED (R97). -/
def FrameRecord.withShed (f : FrameRecord) : FrameRecord := { f with flags := { f.flags with shed := true } }

theorem State.openWindow_eq {s : State} {older : List FrameRecord} {f : FrameRecord}
    (phase : s.fs.phase ≠ .none) (ring : s.fs.ring = older ++ [f]) :
    s.openWindow = { s with fs := { s.fs with
      windowOpen := true, ring := if s.ld.hold then older ++ [f.withShed] else s.fs.ring } } := by
  unfold State.openWindow State.shed
  dsimp only
  split
  · next held =>
    rw [State.updateFrame_eq (older := older) (f := f)]
    · rfl
    · exact phase
    · exact ring
  · rfl

theorem State.strobe_lights {s : State} (strobe : s.ld.mode = .strobe) (free : s.ld.hold = false) :
    s.strobe = { s with
      fs := { s.fs with windowOpen := true }
      ld := { s.ld with activeLevels := s.ld.pendingLevels, outputs := s.ld.pendingLevels } } := by
  have opens : s.openWindow = { s with fs := { s.fs with windowOpen := true } } := if_neg (by simp [free])
  rw [State.strobe, if_pos strobe, opens]
  exact if_neg (by simp [free])

theorem State.strobe_sheds {s : State} {older : List FrameRecord} {f : FrameRecord} (strobe : s.ld.mode = .strobe)
    (held : s.ld.hold = true) (phase : s.fs.phase ≠ .none) (ring : s.fs.ring = older ++ [f]) :
    s.strobe = { s with fs := { s.fs with windowOpen := true, ring := older ++ [f.withShed] } } := by
  rw [State.strobe, if_pos strobe, State.openWindow_eq phase ring]
  simp only [held, if_true]

theorem State.expose_eq {s : State} {older : List FrameRecord} {f : FrameRecord} (ring : s.fs.ring = older ++ [f]) :
    s.expose = { s with fs := { s.fs with
      phase := .expose
      windowOpen := s.fs.windowOpen || decide (s.ld.mode = .steady)
      ring := if s.ld.mode = .steady ∧ s.ld.hold = true then older ++ [f.withShed] else s.fs.ring } } := by
  unfold State.expose
  by_cases steady : s.ld.mode = .steady
  · dsimp only
    rw [if_pos steady, State.openWindow_eq (older := older) (f := f)]
    · simp [steady]
    · exact fun none => nomatch none
    · exact ring
  · simp [steady]

theorem FrameSequencer.exposure_eq {fs : FrameSequencer} {older : List FrameRecord} {f : FrameRecord}
    (phase : fs.phase ≠ .none) (ring : fs.ring = older ++ [f]) : fs.exposure = f.t := by
  rw [FrameSequencer.exposure, FrameSequencer.current_eq phase ring]

theorem FrameRecord.withCapture_eq (c : Capture) (f : FrameRecord) :
    f.withCapture c = { f with
      capture := some c
      flags := { f.flags with
        held := c.published.held, sat := c.published.sat
        moving := f.still.any fun e => decide (c.published.velocity ≠ 0) || e.moving } } := by
  unfold FrameRecord.withCapture
  cases f.still <;> rfl

/-- Settles O36. -/
theorem strobeAndExposureFollowTheFrame : Obligations.StrobeAndExposureFollowTheFrame := by
  intro s running
  rw [exec_strobeOn running, exec_exposureStart running, exec_midpointCapture running]
  refine ⟨fun passed => ?_, fun passed => ?_, fun other => ?_, fun older f ring => ?_⟩
  · rw [State.takeStrobe, if_neg (by
      rintro ⟨pre, closed⟩
      rcases passed with phase | opened
      · exact phase pre
      · rw [closed] at opened
        cases opened)]
  · rw [State.takeExposure, if_neg passed]
  · unfold State.takeMidpoint
    split
    · exact congrArg _ (if_neg fun ⟨expose, _⟩ => other expose)
    · rfl
  intro shedRing
  refine ⟨fun pre closed => ?_, fun pre => ?_, fun expose taken => ?_, fun expose untaken => ?_⟩
  · have inFrame : s.fs.phase ≠ .none := by rw [pre]; decide
    have exposure := FrameSequencer.exposure_eq inFrame ring
    have at_ : s.fs.strobeAt = s.fs.frameStart + 2 * (s.fs.period - 2000 - f.t - 20) := by
      rw [FrameSequencer.strobeAt, exposure]
      rfl
    rw [State.takeStrobe, if_pos ⟨pre, closed⟩, at_]
    refine ⟨fun strobe free => congrArg _ (State.strobe_lights strobe free),
      fun strobe held => congrArg _ (State.strobe_sheds strobe held inFrame ring), fun other => ?_⟩
    exact congrArg _ (if_neg other)
  · have inFrame : s.fs.phase ≠ .none := by rw [pre]; decide
    have at_ : s.fs.exposeAt = s.fs.frameStart + 2 * (s.fs.period - 2000 - f.t) := by
      rw [FrameSequencer.exposeAt, FrameSequencer.exposure_eq inFrame ring]
      rfl
    rw [State.takeExposure, if_pos pre, at_]
    exact congrArg _ (State.expose_eq ring)
  · have inFrame : s.fs.phase ≠ .none := by rw [expose]; decide
    rw [State.takeMidpoint, FrameSequencer.current_eq inFrame ring]
    exact congrArg _ (if_neg fun ⟨_, untaken⟩ => taken untaken)
  · have inFrame : s.fs.phase ≠ .none := by rw [expose]; decide
    have at_ : s.fs.midpointAt = s.fs.frameStart + 2 * (s.fs.period - 2000 - f.t + f.t / 2) := by
      rw [FrameSequencer.midpointAt, FrameSequencer.exposure_eq inFrame ring]
      rfl
    rw [State.takeMidpoint, FrameSequencer.current_eq inFrame ring]
    dsimp only
    rw [if_pos ⟨expose, untaken⟩, at_, State.updateFrame_eq (older := older) (f := f)]
    · rw [FrameRecord.withCapture_eq]
      rfl
    · exact inFrame
    · exact ring

/-! ### Lamps (chapter 6) -/

theorem exec_pwmPeriodEnd {s : State} (running : s.resetLine = false) : exec .pwmPeriodEnd s = .next s.endPwmPeriod :=
  congrArg Host.Outcome.next (State.whenRunning_running _ running)

theorem exec_pwmOnEnd {c : Fin 4} {s : State} (running : s.resetLine = false) :
    exec (.pwmOnEnd c) s = .next (s.endPwmOn c) :=
  congrArg Host.Outcome.next (State.whenRunning_running _ running)

theorem exec_dwellStart {s : State} (running : s.resetLine = false) : exec .dwellStart s = .next s.beginDwell :=
  congrArg Host.Outcome.next (State.whenRunning_running _ running)

/-- Settles O40. -/
theorem pwmAndDwellTimersAct : Obligations.PwmAndDwellTimersAct := by
  intro s running
  simp only [exec_pwmPeriodEnd running, exec_pwmOnEnd running, exec_dwellStart running]
  refine ⟨fun stopped => ⟨?_, fun c => ?_⟩, fun start runs => ⟨?_, fun c => ⟨fun whole => ?_, fun part => ?_⟩⟩,
    fun kept => ?_, fun start stands counts awake empty => ?_⟩
  · rw [State.endPwmPeriod, stopped]
  · rw [State.endPwmOn, stopped]
  · rw [State.endPwmPeriod, runs]
    rfl
  · rw [State.endPwmOn, runs]
    exact congrArg _ (if_pos whole)
  · unfold State.endPwmOn
    split
    · next at_ runs' =>
      obtain rfl : start = at_ := Option.some.inj (runs.symm.trans runs')
      exact congrArg _ (if_neg part)
    · next stopped => exact absurd (stopped.symm.trans runs) (by simp)
  · unfold State.beginDwell
    split
    · next start stands =>
      refine congrArg _ (if_neg ?_)
      rintro ⟨counts, awake, empty⟩
      rcases kept with stopped | off | dwells | waits
      · rw [stands] at stopped
        cases stopped
      · exact counts off
      · rw [awake] at dwells
        cases dwells
      · exact waits empty
    · rfl
  · unfold State.beginDwell
    split
    · next at_ stands' =>
      obtain rfl : start = at_ := Option.some.inj (stands.symm.trans stands')
      exact congrArg _ (if_pos ⟨counts, awake, empty⟩)
    · next stopped => exact absurd (stopped.symm.trans stands) (by simp)

/-! ### The lamps' requests -/

theorem LampMode.ofCode_code (m : LampMode) : LampMode.ofCode m.code = some m := by
  cases m <;> rfl

theorem LampMode.ofCode_none {n : Nat} (large : 2 < n) : LampMode.ofCode n = none := by
  obtain ⟨n, rfl⟩ := Nat.exists_eq_add_of_le' (Nat.succ_le_of_lt large)
  rfl

theorem fin4?_val (n : Fin 4) : fin4? n.val = some n := by
  simp [fin4?]

theorem fin4?_none {n : Nat} (large : 3 < n) : fin4? n = none := by
  simp [fin4?]
  omega

theorem weightsOk_iff (w : Four Nat) : weightsOk w = true ↔ w.c0 ≤ 15 ∧ w.c1 ≤ 15 ∧ w.c2 ≤ 15 ∧ w.c3 ≤ 15 := by
  simp [weightsOk, Four.toList]

theorem weightBytes_bytes (w0 w1 w2 w3 : Byte) :
    weightBytes ⟨w0.toNat, w1.toNat, w2.toNat, w3.toNat⟩ = [w0, w1, w2, w3] := by
  simp [weightBytes, Four.toList]

theorem exec_lampMode {k : Byte} {s : State} (h : s.accepts .surface 0x30 [k]) :
    exec (.lampMode .surface [k]) s =
      .next (State.answeredWith .surface 0x30 (actLampMode .surface k (s.heard .surface))) :=
  congrArg Host.Outcome.next (State.request_acts h (fun _ => by decide) rfl rfl)

theorem exec_lampWeights {p : Port} {w0 w1 w2 w3 : Byte} {s : State} (right : p ≠ .drive)
    (h : s.accepts p 0x31 [w0, w1, w2, w3]) :
    exec (.lampWeights p [w0, w1, w2, w3]) s = .next (State.answeredWith p 0x31
      (actLampWeights p ⟨w0.toNat, w1.toNat, w2.toNat, w3.toNat⟩ (s.heard p))) :=
  congrArg Host.Outcome.next (State.request_acts h (fun _ => by decide) (decide_eq_true right) rfl)

theorem exec_presetWrite {k w0 w1 w2 w3 : Byte} {s : State} (h : s.accepts .surface 0x32 [k, w0, w1, w2, w3]) :
    exec (.presetWrite .surface [k, w0, w1, w2, w3]) s = .next (State.answeredWith .surface 0x32
      (actPresetWrite .surface (k, ⟨w0.toNat, w1.toNat, w2.toNat, w3.toNat⟩) (s.heard .surface))) :=
  congrArg Host.Outcome.next (State.request_acts h (fun _ => by decide) rfl rfl)

theorem exec_presetSelect {p : Port} {k : Byte} {s : State} (right : p ≠ .drive) (h : s.accepts p 0x33 [k]) :
    exec (.presetSelect p [k]) s = .next (State.answeredWith p 0x33 (actPresetSelect p k (s.heard p))) :=
  congrArg Host.Outcome.next (State.request_acts h (fun _ => by decide) (decide_eq_true right) rfl)

/-- Settles O39. -/
theorem lampRequestsWriteWhatTheNextBoundaryAdopts : Obligations.LampRequestsWriteWhatTheNextBoundaryAdopts := by
  intro p k w0 w1 w2 w3 s h w fits
  have ok : weightsOk w = true ↔ fits := weightsOk_iff w
  refine ⟨fun surface accepted => ?_, fun right accepted => ⟨fun good => ?_, fun bad => ?_⟩,
    fun surface accepted => ?_, fun right accepted => ⟨fun n number => ?_, fun large => ?_⟩⟩
  · subst surface
    rw [exec_lampMode accepted]
    refine ⟨fun m code => ?_, fun large => ?_⟩
    · have echo : u8 m.code = [k] := by simp [u8, code]
      rw [actLampMode, ← code, LampMode.ofCode_code]
      dsimp only
      rw [echo]
      rfl
    · rw [actLampMode, LampMode.ofCode_none large]
      rfl
  · rw [exec_lampWeights right accepted, actLampWeights, if_pos (ok.mpr good), weightBytes_bytes]
    rfl
  · rw [exec_lampWeights right accepted, actLampWeights, if_neg (mt ok.mp bad)]
    rfl
  · subst surface
    rw [exec_presetWrite accepted]
    refine ⟨fun n number good => ?_, fun refused => ?_⟩
    · rw [actPresetWrite, number, fin4?_val]
      dsimp only
      rw [if_pos (ok.mpr good)]
      rfl
    · have range : actPresetWrite .surface (k, w) h = (h, bare .range) := by
        unfold actPresetWrite
        rcases refused with large | bad
        · rw [fin4?_none large]
        · split
          · exact if_neg (mt ok.mp bad)
          · rfl
      rw [range]
      rfl
  · rw [exec_presetSelect right accepted, actPresetSelect, number, fin4?_val]
    rfl
  · rw [exec_presetSelect right accepted, actPresetSelect, fin4?_none large]
    rfl

end Sys2Proof.Machine
end

section
/-! Stills and halts (chapter 7), and the posted attributes (8.1). -/

namespace Sys2Proof.Machine

/-! ### Stills (R119 to R122) -/

theorem parseStill_built (code : Option Half) : parseStill ((code.map le16).getD []) = some code := by
  cases code with
  | none => rfl
  | some code => simp [parseStill, le16, half_le16]

theorem exec_still {p : Port} {code : Option Half} {s : State} (h : s.accepts p 0x28 ((code.map le16).getD [])) :
    exec (.still p ((code.map le16).getD [])) s =
      .next (State.answeredWith p 0x28 (actStill p code (s.heard p))) :=
  congrArg Host.Outcome.next (State.request_acts h (fun _ => by decide) rfl (parseStill_built code))

/-- Settles O41. -/
theorem stillJoinsTheTailOrIsRefused : Obligations.StillJoinsTheTailOrIsRefused := by
  refine ⟨fun p code s => ?_, fun moving s => ⟨fun room => if_pos room, fun older newest queue full => ?_⟩⟩
  · intro args h accepted
    have queue : (s.heard p).sq = s.sq := by simp
    refine ⟨fun room => ?_, fun full => ?_⟩
    · rw [exec_still accepted, actStill, if_pos (by rw [queue]; exact room)]
      simp only [State.joinStill, queue, List.length_append]
      rfl
    · rw [exec_still accepted, actStill, if_neg (by rw [queue]; exact Nat.not_lt.mpr full)]
      rfl
  · have many : ¬ s.sq.length < stillPlaces := by rw [full]; decide
    have last : s.sq.getLast? = some newest := by simp [queue]
    have rest : s.sq.dropLast = older := by simp [queue]
    simp only [State.insertHaltStill, if_neg many, last, rest]
    rfl

/-! ### A sequence's end, and a record beside the halt controller -/

/-- A sequence that ends lets the standstill count, and lowers DHALT unless a link halt holds it (R114, R132). -/
theorem State.setSeq_ends {q₀ : HaltSeq} {s : State} (going : s.hc.seq = some q₀) :
    let idle : State := { s with
      hc := { s.hc with seq := none }
      ld := { s.ld with standstill := if s.cu.velocity = 0 then some s.now else none } }
    s.setSeq none = if s.hc.linkHalt then idle else idle.setEvent .drive .halt := by
  cases lost : s.hc.linkHalt with
  | true => simp [State.setSeq, State.setHalt, going, HaltController.dhalt, lost, State.startStandstill]
  | false =>
    simp only [State.setSeq, State.setHalt, going, HaltController.dhalt, lost]
    simp [State.startStandstill]
    rfl

/-- A record reads nothing of the halt controller. -/
theorem State.journal_setHc (b : Body) (hc : HaltController) (s : State) :
    ({ s with hc := hc } : State).journal b = { s.journal b with hc := hc } := by
  obtain ⟨jn, pi⟩ := State.journal_congr (s := s) (t := { s with hc := hc }) rfl rfl rfl b
  exact State.eq_of_fields (jn := jn) (pi := pi)

/-! ### HALT, HALT ACK and RESUME (R125, R126, R130) -/

theorem exec_halt {s : State} (h : s.accepts .surface 0x29 []) :
    exec (.halt .surface []) s = .next (State.answeredWith .surface 0x29 (actHalt .surface () (s.heard .surface))) :=
  congrArg Host.Outcome.next (State.request_acts h (fun _ => by decide) rfl rfl)

theorem exec_haltAck {s : State} (h : s.accepts .drive 0x2A []) :
    exec (.haltAck .drive []) s = .next (State.answeredWith .drive 0x2A (actHaltAck .drive () s)) :=
  congrArg Host.Outcome.next (State.request_acts h (fun _ => by decide) rfl rfl)

theorem exec_resume {p : Port} {s : State} (h : s.accepts p 0x2B []) :
    exec (.resume p []) s = .next (State.answeredWith p 0x2B (actResume p () (s.heard p))) :=
  congrArg Host.Outcome.next (State.request_acts h (fun _ => by decide) rfl rfl)

/-- A surface frame that is heard restores the link (R131, R165). -/
theorem State.heard_surface_halt (s : State) : (s.heard .surface).hc = { s.hc with linkHalt := false } := by
  obtain ⟨drive, head, heard, -⟩ := State.hearSurface_eq (s.setReceiver .surface .hunt)
  exact congrArg State.hc heard

/-- What SETTLING begins with, in a state whose sequence is already SETTLING (R127). -/
theorem State.beginSettling_eq {q : HaltSeq} {s : State} (going : s.hc.seq = some { q with state := .settling }) :
    s.beginSettling q = if s.cu.velocity = 0 then s.startSettle { q with state := .settling }
      else { s with hc := { s.hc with seq := some { q with state := .settling, settle := .waiting } } } := by
  unfold State.beginSettling
  dsimp only
  rw [State.setSeq_going going]

/-- Settles O42. -/
theorem haltStartsAndAckSettles : Obligations.HaltStartsAndAckSettles := by
  refine fun s => ⟨fun accepted => ⟨fun q going => ?_, fun idle => ?_⟩,
    fun accepted => ⟨fun other => ?_, fun q going asked => ?_⟩⟩
  · have seq : (s.heard .surface).hc.seq = some q := by simpa using going
    rw [exec_halt accepted, actHalt, seq]
    simp only [haltStateCode]
    cases q.state <;> rfl
  · have hc : (s.heard .surface).hc = ⟨none, false⟩ := by
      rw [State.heard_surface_halt]
      exact congrArg (HaltController.mk · false) idle
    have kept : (s.heard .surface).ld = s.ld ∧ (s.heard .surface).now = s.now ∧ (s.heard .surface).cfg = s.cfg := by
      simp
    obtain ⟨ld, now, cfg⟩ := kept
    have asks : actHalt .surface () (s.heard .surface) =
        ((s.heard .surface).startHalt .halt .surface,
          ⟨.ok, u8 (haltStateCode ((s.heard .surface).startHalt .halt .surface).hc.seq)⟩) := by
      simp only [actHalt, hc]
    have starts := State.startHalt_eq (s := s.heard .surface) (by rw [hc]) .halt .surface
    simp only [hc, ld, now, cfg, Bool.false_eq_true, if_false] at starts
    rw [exec_halt accepted, asks, starts]
    simp only [State.journal_frame, State.setEvent_frame, now, cfg]
    generalize s.heard .surface = h
    rfl
  · have refused : actHaltAck .drive () s = (s, bare .state) := by
      unfold actHaltAck
      split
      · next q going => exact if_neg (other q going)
      · rfl
    rw [exec_haltAck accepted, refused]
    rfl
  · have acks : actHaltAck .drive () s = (((s.setSeq (some { q with state := .settling })).journal
        (q.record .acked none)).beginSettling q, bare .ok) := by
      simp only [actHaltAck, going, asked, if_true]
    intro acked settling
    have velocity : acked.cu.velocity = s.cu.velocity := by simp [acked]
    have time : acked.cfg.settleTime = s.cfg.settleTime := by simp [acked]
    have now : acked.now = s.now := by simp [acked]
    have begins := State.beginSettling_eq (q := q) (s := settling q.settle) rfl
    have taken {u : State} (settled : (settling q.settle).beginSettling q = u) :
        exec (.haltAck .drive []) s = .next (u.answered .drive 0x2A .ok []) := by
      rw [exec_haltAck accepted, acks, State.setSeq_going going,
        State.journal_setHc _ { s.hc with seq := some { q with state := .settling } } s, ← settled]
      rfl
    refine ⟨fun moves => taken ?_, fun still counts => taken ?_, fun still atOnce => taken ?_⟩
    · exact begins.trans (if_neg (by rw [← velocity] at moves; exact moves))
    · refine (begins.trans (if_pos (velocity.trans still))).trans ?_
      refine (State.startSettle_counts (q := { q with state := .settling }) (s := settling q.settle) rfl
        (ne_of_eq_of_ne time counts)).trans ?_
      simp only [settling, time, now]
    · refine (begins.trans (if_pos (velocity.trans still))).trans ?_
      rw [State.startSettle, if_pos (time.trans atOnce)]
      exact State.reachStanding_eq rfl _

theorem mayResume_iff (p : Port) (q : HaltSeq) :
    mayResume p q = true ↔ p = .surface ∨ ∃ slot, q.origin = .waypoint slot p := by
  unfold mayResume
  cases q.origin <;> simp

/-- Settles O43. -/
theorem resumeEndsTheSequence : Obligations.ResumeEndsTheSequence := by
  intro p s accepted h
  have seq : (s.heard p).hc.seq = s.hc.seq := by simp
  have ld : (s.heard p).ld = s.ld := by simp
  have velocity : (s.heard p).cu.velocity = s.cu.velocity := by simp
  have now : (s.heard p).now = s.now := by simp
  refine ⟨fun idle => ?_, fun q going => ?_⟩
  · rw [exec_resume accepted, actResume, seq, idle]
    rfl
  rw [exec_resume accepted, actResume, seq, going]
  intro mine
  refine ⟨fun foreign => ?_, fun own => ?_⟩
  · dsimp only
    rw [if_neg (mt (mayResume_iff p q).mp foreign)]
    rfl
  · dsimp only
    rw [if_pos ((mayResume_iff p q).mpr own), State.endHalt, State.setSeq_ends (seq.trans going)]
    dsimp only
    rw [ld, velocity, now]
    rfl

theorem exec_settleExpiry {s : State} (running : s.resetLine = false) : exec .settleExpiry s = .next s.expireSettle :=
  congrArg Host.Outcome.next (State.whenRunning_running _ running)

theorem exec_haltTimeout {s : State} (running : s.resetLine = false) : exec .haltTimeout s = .next s.expireHalt :=
  congrArg Host.Outcome.next (State.whenRunning_running _ running)

/-- Settles O44. -/
theorem haltTimersEndTheWait : Obligations.HaltTimersEndTheWait := by
  intro s running
  rw [exec_settleExpiry running, exec_haltTimeout running]
  refine ⟨fun waits => ?_, fun stopped => ?_, fun q due going runs => ?_, fun q due going runs => ⟨fun kind => ?_, fun kind => ?_⟩⟩
  · unfold State.expireSettle
    split
    · next q going =>
      split
      · next due runs => exact absurd runs (waits q going due)
      · rfl
    · rfl
  · unfold State.expireHalt
    split
    · next q going => rw [stopped q going]
    · rfl
  · simp only [State.expireSettle, going, runs]
    exact congrArg _ (State.reachStanding_eq (s := s.reach due) going q)
  · simp only [State.expireHalt, going, runs, State.haltTimedOut, kind]
    refine congrArg _ ((State.setSeq_going (by simpa using going) _).trans ?_)
    simp [HaltSeq.record, kind, State.reach]
  · simp only [State.expireHalt, going, runs, State.haltTimedOut, kind]
    refine congrArg _ ((State.setSeq_ends (by simpa using going)).trans ?_)
    simp [HaltSeq.record, kind, State.reach]

end Sys2Proof.Machine
end

section
/-! Posted attributes (8.1): ATTITUDE, POSE and their freshness. -/

namespace Sys2Proof.Machine

theorem exec_attitude {i0 i1 r0 r1 : Byte} {s : State} (h : s.accepts .drive 0x38 [i0, i1, r0, r1]) :
    exec (.attitude .drive [i0, i1, r0, r1]) s = .next (State.answeredWith .drive 0x38
      (actAttitude .drive ((half i0 i1).toInt, (half r0 r1).toInt) s)) :=
  congrArg Host.Outcome.next (State.request_acts h (fun _ => by decide) rfl rfl)

theorem exec_pose {p0 p1 t0 t1 z : Byte} {s : State} (h : s.accepts .head 0x39 [p0, p1, t0, t1, z]) :
    exec (.pose .head [p0, p1, t0, t1, z]) s = .next (State.answeredWith .head 0x39
      (actPose .head ((half p0 p1).toInt, (half t0 t1).toInt, z.toNat) s)) :=
  congrArg Host.Outcome.next (State.request_acts h (fun _ => by decide) rfl rfl)

theorem exec_attributeExpiry {which : Posted} {s : State} (running : s.resetLine = false) :
    exec (.attributeExpiry which) s = .next (s.expireAttribute which) :=
  congrArg Host.Outcome.next (State.whenRunning_running _ running)

/-- An answer held in the drive slot makes way for the next request (R166, log 7). -/
theorem State.accepts_answered_drive {c code : Byte} {args data : List Byte} {status : Status} {s : State}
    (running : s.resetLine = false) : (s.answered .drive c status data).accepts .drive code args := by
  refine ⟨running, fun c a due working => ?_⟩
  cases working

/-- Settles O45. -/
theorem attitudeIsClampedAndFresh : Obligations.AttitudeIsClampedAndFresh := by
  refine ⟨fun p args s other accepted => ?_, fun args s length accepted => ?_, fun i0 i1 r0 r1 s accepted => ?_,
    fun a0 a1 a2 a3 i0 i1 r0 r1 s accepted => ?_⟩
  · exact congrArg Host.Outcome.next (State.request_rights accepted (fun _ => by decide) (decide_eq_false other))
  · refine congrArg Host.Outcome.next (State.request_length accepted (fun _ => by decide) rfl ?_)
    exact Option.not_isSome_iff_eq_none.mp (by rw [parseAttitude_isSome]; simpa using length)
  · intro i incline roll
    refine ⟨?_, exec_attitude accepted, fun value => ?_, fun value => ?_⟩
    · have below : (half r0 r1).toInt.emod 3600 < 3600 := Int.emod_lt_of_pos _ (by decide)
      show ((half r0 r1).toInt.emod 3600).toNat ≤ 3599
      omega
    · simp only [roll, value]
      rfl
    · simp only [roll, value]
      rfl
  · exact ⟨_, exec_attitude accepted, exec_attitude (State.accepts_answered_drive accepted.1)⟩

/-- Settles O46. -/
theorem poseIsStoredWholeAndExpires : Obligations.PoseIsStoredWholeAndExpires := by
  refine ⟨fun p0 p1 t0 t1 z s accepted => ?_, fun s running => ?_⟩
  · intro pan y tilt zoom
    have zoomed : (if z.toNat = 0 then 1 else z.toNat) = zoom := by
      have zero : z.toNat = 0 ↔ z = 0 := BitVec.toNat_inj (y := 0#8)
      simp only [zoom, zero]
    rw [exec_pose accepted, actPose, storedPose]
    simp only [zoomed]
    rfl
  · simp only [exec_attributeExpiry running]
    refine ⟨fun absent => ?_, fun absent => ?_, fun x fresh => ?_, fun x fresh => ?_⟩
    · simp only [State.expireAttribute, absent]
    · simp only [State.expireAttribute, absent]
    · simp only [State.expireAttribute, fresh]
      rfl
    · simp only [State.expireAttribute, fresh]
      rfl

end Sys2Proof.Machine
end

section
/-! The exposure end (R82, R99, R128) and the stamp block (12.3, R140, R141). -/

namespace Sys2Proof.Machine

theorem exec_exposureEnd {s : State} (running : s.resetLine = false) : exec .exposureEnd s = .next s.takeExposureEnd :=
  congrArg Host.Outcome.next (State.whenRunning_running _ running)

/-! ### The end itself -/

/-- The state in which the exposure of a frame has ended, before its record is made: GUARD, the window
closed, and in STROBE mode the lamps off (R82, R111). -/
def State.darkened (s : State) : State :=
  { s with
    fs := { s.fs with phase := .guard, windowOpen := false }
    ld := if s.ld.mode = .strobe then
        { s.ld with activeLevels := .all 0, pwmStart := none, outputs := .all 0 }
      else s.ld }

theorem State.endExposure_eq (f : FrameRecord) (s : State) :
    s.endExposure f = if (f.still.any fun e => decide (e.source = .halt)) then (s.darkened.emitFrame f).haltStillExposed
      else s.darkened.emitFrame f := by
  have dark : (if s.ld.mode = .strobe then
      { ({ s with fs := { s.fs with phase := .guard, windowOpen := false } } : State) with ld := s.ld.cut }
      else { s with fs := { s.fs with phase := .guard, windowOpen := false } }) = s.darkened := by
    unfold State.darkened
    split <;> rfl
  unfold State.endExposure
  dsimp only
  rw [dark]
  cases f.still with
  | none => rfl
  | some e => simp only [Option.any_some, decide_eq_true_eq]

/-- A halt still's exposure ends the sequence whose still it is (R128). -/
theorem State.haltStillExposed_own {q : HaltSeq} {s : State} (going : s.hc.seq = some q)
    (own : q.kind = .haltStill ∧ q.state = .standing ∧ q.stillMark = .taken) :
    s.haltStillExposed = s.endHalt q .done none := by
  simp only [State.haltStillExposed, going]
  exact if_pos own

theorem State.haltStillExposed_other {s : State}
    (other : ∀ q, s.hc.seq = some q → ¬ (q.kind = .haltStill ∧ q.state = .standing ∧ q.stillMark = .taken)) :
    s.haltStillExposed = s := by
  unfold State.haltStillExposed
  split
  · next q going => exact if_neg (other q going)
  · rfl

theorem State.emitFrame_uncaptured {f : FrameRecord} (uncaptured : f.capture = none) (s : State) :
    s.emitFrame f = s := by
  simp only [State.emitFrame, uncaptured]

theorem State.emitFrame_still {f : FrameRecord} {c : Capture} {e : StillEntry} (captured : f.capture = some c)
    (still : f.still = some e) (s : State) :
    s.emitFrame f = (({ s with sp := { s.sp with ovlBlock := f.stampBlock c, ovlStart := s.now } } : State).handRecord
      (c.published.header true) (.still e.source e.code (f.body c))).1 := by
  simp only [State.emitFrame, captured, FrameRecord.journalBody, still]

theorem State.emitFrame_frame_record {f : FrameRecord} {c : Capture} (captured : f.capture = some c) (plain : f.still = none)
    (s : State) :
    let sent : State := { s with sp := { s.sp with ovlBlock := f.stampBlock c, ovlStart := s.now } }
    s.emitFrame f = if s.cfg.journalInterval ≠ 0 ∧ f.number.toNat % s.cfg.journalInterval = 0 then
      (sent.handRecord (c.published.header true) (.frame (f.body c))).1 else sent := by
  simp only [State.emitFrame, captured, FrameRecord.journalBody, plain]
  split
  · next b body =>
    split at body
    · next due => rw [if_pos due]; cases body; rfl
    · cases body
  · next body =>
    split at body
    · cases body
    · next idle => rw [if_neg idle]

/-! ### The stamp block -/

/-- The parts of a stamp block that are always there (12.3). -/
def FrameRecord.stampHead (f : FrameRecord) (c : Capture) : List Byte :=
  le32 f.number ++ le16 c.published.runNumber ++ le32 c.published.runClock ++
  s32 c.published.chainage ++ le16 c.published.epoch ++ u8 c.published.flags ++
  s16 c.published.velocity ++ u32 f.t ++ u16 f.d ++ u16 f.g ++ u16 f.flags.bits ++
  u8 (packBits [f.still.isSome, c.attitude.isSome, c.pose.isSome])

/-- The parts that the presence byte marks. -/
def FrameRecord.stampTail (f : FrameRecord) (c : Capture) : List Byte :=
  stillPartBytes f.still ++ attitudeBytes c.attitude ++ poseBytes c.pose

theorem FrameRecord.stampParts_eq (f : FrameRecord) (c : Capture) : f.stampParts c = f.stampHead c ++ f.stampTail c := by
  simp only [FrameRecord.stampParts, FrameRecord.stampHead, FrameRecord.stampTail, List.append_assoc]

theorem FrameRecord.stampHead_length (f : FrameRecord) (c : Capture) : (f.stampHead c).length = 30 := rfl

theorem FrameRecord.stampTail_length (f : FrameRecord) (c : Capture) : (f.stampTail c).length ≤ 12 := by
  have still : (stillPartBytes f.still).length ≤ 3 := by
    cases f.still with
    | none => decide
    | some e => cases e with | mk source code moving => cases code <;> simp [stillPartBytes, u8, le16]
  have attitude : (attitudeBytes c.attitude).length ≤ 4 := by
    cases c.attitude <;> simp [attitudeBytes, s16, u16, le16]
  have pose : (poseBytes c.pose).length ≤ 5 := by
    cases c.pose <;> simp [poseBytes, s16, u16, le16, u8]
  simp only [FrameRecord.stampTail, List.length_append]
  omega

theorem FrameRecord.stampBlock_eq (f : FrameRecord) (c : Capture) :
    f.stampBlock c = 0xC3 :: BitVec.ofNat 8 (30 + (f.stampTail c).length) :: (f.stampHead c ++ (f.stampTail c ++
      le16 (crc16 (BitVec.ofNat 8 (30 + (f.stampTail c).length) :: (f.stampHead c ++ f.stampTail c))))) := by
  unfold FrameRecord.stampBlock
  dsimp only
  rw [FrameRecord.stampParts_eq, List.length_append, FrameRecord.stampHead_length, List.cons_append,
    List.cons_append, List.append_assoc]

theorem FrameRecord.stampBlock_length (f : FrameRecord) (c : Capture) :
    (f.stampBlock c).length = 34 + (f.stampTail c).length := by
  rw [FrameRecord.stampBlock_eq]
  simp only [List.length_cons, List.length_append, FrameRecord.stampHead_length]
  simp [le16]
  omega

/-- Where each of the fixed parts stands in a block (12.3). -/
theorem FrameRecord.stampHead_slices (f : FrameRecord) (c : Capture) (start length : Byte) (rest : List Byte) :
    let slice := fun (from_ n : Nat) => ((start :: length :: (f.stampHead c ++ rest)).drop from_).take n
    slice 2 4 = le32 f.number ∧ slice 6 2 = le16 c.published.runNumber ∧ slice 8 4 = le32 c.published.runClock ∧
    slice 12 4 = s32 c.published.chainage ∧ slice 16 2 = le16 c.published.epoch ∧
    slice 18 1 = u8 c.published.flags ∧ slice 19 2 = s16 c.published.velocity ∧ slice 21 4 = u32 f.t ∧
    slice 25 2 = u16 f.d ∧ slice 27 2 = u16 f.g ∧ slice 29 2 = u16 f.flags.bits ∧
    slice 31 1 = u8 (packBits [f.still.isSome, c.attitude.isSome, c.pose.isSome]) := by
  intro slice
  simp only [slice, FrameRecord.stampHead, s32, s16, u32, u16, u8, le32, le16, List.cons_append, List.nil_append,
    List.drop_succ_cons, List.drop_zero, List.take_succ_cons, List.take_zero, and_self]

/-- What follows the fixed parts: the marked parts, and the CRC over all but the start byte (12.3, R188). -/
theorem FrameRecord.stampBlock_tail (f : FrameRecord) (c : Capture) :
    let length := BitVec.ofNat 8 (30 + (f.stampTail c).length)
    let block := 0xC3 :: length :: (f.stampHead c ++ (f.stampTail c ++
      le16 (crc16 (length :: (f.stampHead c ++ f.stampTail c)))))
    block.drop 32 = f.stampTail c ++ le16 (crc16 ((block.drop 1).take (34 + (f.stampTail c).length - 3))) := by
  intro length block
  have counted : (block.drop 1).take (34 + (f.stampTail c).length - 3) =
      length :: (f.stampHead c ++ f.stampTail c) := by
    simp only [block, List.drop_succ_cons, List.drop_zero]
    rw [← List.append_assoc, ← List.cons_append]
    refine List.take_left' ?_
    rw [List.length_cons, List.length_append, FrameRecord.stampHead_length]
    omega
  rw [counted]
  exact List.drop_left' (l₁ := 0xC3 :: length :: f.stampHead c) rfl

theorem FrameFlags.bits_eq (f : FrameFlags) :
    f.bits = f.still.toNat + 2 * f.underlit.toNat + 4 * f.overlit.toNat + 8 * f.shed.toNat + 16 * f.held.toNat +
      32 * f.sat.toNat + 64 * f.moving.toNat + 128 * f.statsLate.toNat + 256 * f.dwell.toNat := by
  simp only [FrameFlags.bits, packBits]
  omega

theorem Published.flags_eq (x : Published) :
    x.flags = x.source.code + 4 * x.agreement.code + 16 * x.wheelFault.toNat + 32 * x.cableLost.toNat +
      64 * x.sat.toNat + 128 * x.held.toNat := by
  simp only [Published.flags, positionFlags, packBits]
  omega

/-- The pin OVL while a byte of the block is in course (R141). -/
theorem State.ovl_sending {s : State} {sent rest : List Byte} {b : Byte} {bit : Nat} (running : s.resetLine = false)
    (block : s.sp.ovlBlock = sent ++ b :: rest) (now : s.now = s.sp.ovlStart + 10 * sent.length + bit)
    (inside : bit < 10) : s.ovl = ((serialBits b)[bit]?).getD true := by
  have since : s.now - s.sp.ovlStart = 10 * sent.length + bit := by omega
  rw [State.ovl, running, Bool.false_or, since, block]
  exact serialLevel_append sent rest b inside

theorem State.ovl_rests {s : State} (past : s.sp.ovlStart + 10 * s.sp.ovlBlock.length ≤ s.now) : s.ovl = true := by
  rw [State.ovl, serialLevel_after (by omega), Bool.or_true]

/-- Settles O37. -/
theorem exposureEndSendsStampAndRecord : Obligations.ExposureEndSendsStampAndRecord := by
  refine ⟨fun s running => ?_, fun s sent rest b bit running block now => ?_, fun s past => State.ovl_rests past,
    fun f c => ?_⟩
  · rw [exec_exposureEnd running]
    refine ⟨fun other => ?_, fun older f expose ring => ?_⟩
    · unfold State.takeExposureEnd
      split
      · exact congrArg _ (if_neg other)
      · rfl
    intro now ended kept own
    have inFrame : s.fs.phase ≠ .none := by rw [expose]; decide
    have ends : s.takeExposureEnd = (s.reach s.fs.endAt).endExposure f := by
      rw [State.takeExposureEnd, FrameSequencer.current_eq inFrame ring]
      exact if_pos expose
    have emits : ended.emitFrame f = kept := by
      cases captured : f.capture with
      | none => simp only [kept, captured, State.emitFrame_uncaptured captured]
      | some c =>
        cases still : f.still with
        | none =>
          simp only [kept, captured, still, State.emitFrame_frame_record captured still]
          rfl
        | some e =>
          simp only [kept, captured, still, State.emitFrame_still captured still]
          rfl
    have hc : kept.hc = s.hc := by rw [← emits]; simp [ended]
    have cu : kept.cu = s.cu := by rw [← emits]; simp [ended]
    have now_ : kept.now = now := by rw [← emits]; simp [ended]
    have dark : (s.reach s.fs.endAt).darkened = ended := rfl
    rw [ends, State.endExposure_eq, dark, emits]
    refine ⟨fun foreign => ?_, fun e q still source going mine => ?_⟩
    · refine congrArg _ ?_
      rcases foreign with elsewhere | none_own
      · refine if_neg fun halt => ?_
        cases still : f.still with
        | none => simp [still] at halt
        | some e => exact elsewhere e still (by simpa [still] using halt)
      · rw [State.haltStillExposed_other (by rw [hc]; exact none_own), ite_self]
    · have halt : (f.still.any fun e => decide (e.source = .halt)) = true := by simp [still, source]
      rw [if_pos halt, State.haltStillExposed_own (by rw [hc]; exact going) mine, State.endHalt,
        State.setSeq_ends (by rw [hc]; exact going)]
      dsimp only
      rw [hc, cu, now_]
      rfl
  · refine ⟨?_, ?_, ?_⟩
    · rintro rfl
      exact State.ovl_sending running block now (by decide)
    · rintro i data rfl
      rw [State.ovl_sending running block now (by omega)]
      exact serialBits_data b i data
    · rintro rfl
      rw [State.ovl_sending running block now (by decide)]
      rfl
  · intro block slice x source still attitude pose
    have causes (cause : Cause) : cause.code = source cause := by
      rcases cause with (_ | _ | _) | i | i | _ <;> rfl
    have tail : f.stampTail c = still ++ attitude ++ pose := by
      refine congrArg₂ (· ++ ·) (congrArg₂ (· ++ ·) ?_ ?_) ?_
      · simp only [still]
        rcases f.still with _ | ⟨cause, _ | code, moving⟩
        · rfl
        · simp [stillPartBytes, causes]
        · simp [stillPartBytes, causes, Nat.add_comm]
      · simp only [attitude]
        cases c.attitude <;> rfl
      · simp only [pose]
        cases c.pose <;> rfl
    have short := f.stampTail_length c
    have shape := f.stampBlock_eq c
    have flags := f.flags.bits_eq
    have length : block.length = 34 + (f.stampTail c).length := f.stampBlock_length c
    refine ⟨by omega, by omega, ?_⟩
    rw [length, ← FrameFlags.bits_eq, ← Published.flags_eq, ← tail]
    obtain ⟨number, run, clock, chainage, epoch, position, velocity, exposure, level, gain, frameFlags, presence⟩ :=
      FrameRecord.stampHead_slices f c 0xC3 (BitVec.ofNat 8 (30 + (f.stampTail c).length))
        (f.stampTail c ++ le16 (crc16 (BitVec.ofNat 8 (30 + (f.stampTail c).length) :: (f.stampHead c ++ f.stampTail c))))
    simp only [slice, block, shape]
    refine ⟨rfl, ?_, number, run, clock, chainage, epoch, position, velocity, exposure, level, gain, frameFlags, ?_, ?_⟩
    · have counted : 34 + (f.stampTail c).length - 4 = 30 + (f.stampTail c).length := by omega
      rw [counted]
      rfl
    · refine presence.trans (congrArg u8 ?_)
      simp only [packBits]
      omega
    · exact f.stampBlock_tail c

end Sys2Proof.Machine
end

section
/-! Steps on an empty queue: what is due, then what comes from outside, then one tick (log 2, log 4, log 5). -/

namespace Sys2Proof.Machine

/-! ### Every step answers -/

theorem exec_answers (i : Instr) (s : State) : ∃ t, exec i s = .next t := by
  cases i <;> exact ⟨_, rfl⟩

theorem State.surfaceByte_answers (b : Byte) (stopBit : Bool) (s : State) : ∃ t, s.surfaceByte b stopBit = .next t := by
  unfold State.surfaceByte
  dsimp only
  split
  · split
    · exact ⟨_, rfl⟩
    · exact exec_answers _ _
    · exact exec_answers _ _
    · exact exec_answers _ _
  · exact exec_answers _ _

theorem State.endTransfer_answers (b : BusPort) (kept : Option (List Byte)) (s : State) :
    ∃ t, s.endTransfer b kept = .next t := by
  unfold State.endTransfer
  split <;> exact exec_answers _ _

theorem State.driveRelease_answers (s : State) : ∃ t, s.driveRelease = .next t := by
  unfold State.driveRelease
  dsimp only
  split
  · exact State.endTransfer_answers _ _ _
  · exact ⟨_, rfl⟩

theorem State.endHeadWrite_answers (s : State) : ∃ t, s.endHeadWrite = .next t := by
  unfold State.endHeadWrite
  split
  · exact State.endTransfer_answers _ _ _
  · exact ⟨_, rfl⟩

theorem State.headStart_answers (address : BitVec 7) (read : Bool) (s : State) : ∃ t, s.headStart address read = .next t := by
  obtain ⟨t, ended⟩ := s.endHeadWrite_answers
  exact ⟨t.headAddressed address read, by rw [State.headStart, ended]⟩

theorem State.lrckRise_answers (lrd : Bool) (s : State) : ∃ t, s.lrckRise lrd = .next t := by
  unfold State.lrckRise
  dsimp only
  split
  · exact ⟨_, rfl⟩
  split
  · split
    · exact ⟨_, rfl⟩
    · exact exec_answers _ _
  · exact ⟨_, rfl⟩

theorem State.takeWire_answers (w : Wire) (s : State) : ∃ t, s.takeWire w = .next t := by
  cases w with
  | sample p => exact ⟨_, rfl⟩
  | surfaceByte b stopBit => exact s.surfaceByte_answers b stopBit
  | driveSelect => exact ⟨_, rfl⟩
  | dsckRise mosi => exact ⟨_, rfl⟩
  | dsckFall => exact ⟨_, rfl⟩
  | driveRelease => exact s.driveRelease_answers
  | headStart address read => exact s.headStart_answers address read
  | headWrite b => exact ⟨_, rfl⟩
  | headRead => exact ⟨_, rfl⟩
  | headStop => exact s.endHeadWrite_answers
  | lrckRise lrd => exact s.lrckRise_answers lrd
  | lrckFall => exact ⟨_, rfl⟩

/-! ### The step on an empty queue -/

theorem step_empty {s : State} (empty : s.pending = []) : step s = s.idle := by
  simp only [step, empty]

theorem step_due {s : State} {i : Instr} (empty : s.pending = []) (running : s.resetLine = false)
    (due : s.dueEvent = some i) : step s = exec i s := by
  rw [step_empty empty, State.idle, running, due]
  rfl

theorem step_wire {s : State} {w : Wire} {rest : List Wire} (empty : s.pending = []) (running : s.resetLine = false)
    (none_due : s.dueEvent = none) (input : s.inputs = w :: rest) : step s = ({ s with inputs := rest }).takeWire w := by
  rw [step_empty empty, State.idle, if_neg (by rw [running]; decide), none_due]
  simp only [input]

theorem step_tick {s : State} (empty : s.pending = []) (running : s.resetLine = false)
    (none_due : s.dueEvent = none) (silent : s.inputs = []) : step s = .next (s.tick s.pins) := by
  rw [step_empty empty, State.idle, if_neg (by rw [running]; decide), none_due]
  simp only [silent]

theorem step_held {s : State} {w : Wire} {rest : List Wire} (empty : s.pending = []) (held : s.resetLine = true)
    (input : s.inputs = w :: rest) : step s = .next (({ s with inputs := rest }).holdWire w) := by
  rw [step_empty empty, State.idle, if_pos held]
  simp only [input]

theorem step_held_silent {s : State} (empty : s.pending = []) (held : s.resetLine = true) (silent : s.inputs = []) :
    step s = .next s := by
  rw [step_empty empty, State.idle, if_pos held]
  simp only [silent]

theorem step_answers (s : State) : ∃ t, step s = .next t := by
  cases queue : s.pending with
  | cons c rest =>
    obtain ⟨t, taken⟩ := exec_answers c { s with pending := rest }
    exact ⟨t, by simp only [step, queue]; exact taken⟩
  | nil =>
    cases line : s.resetLine with
    | true =>
      cases input : s.inputs with
      | nil => exact ⟨_, step_held_silent queue line input⟩
      | cons w rest => exact ⟨_, step_held queue line input⟩
    | false =>
      cases due : s.dueEvent with
      | some i => exact step_due queue line due ▸ exec_answers i s
      | none =>
        cases input : s.inputs with
        | nil => exact ⟨_, step_tick queue line due input⟩
        | cons w rest => exact step_wire queue line due input ▸ State.takeWire_answers w _

/-- The first of what is due is the first of the events before an event list's cut, else of those after it. -/
theorem State.dueEvent_of_head {s : State} {i : Instr} {rest : List (Option Instr)}
    (events : s.dueEvents = some i :: rest) : s.dueEvent = some i := by
  rw [State.dueEvent, events]
  rfl

/-! ### What is due, entry by entry (log 4) -/

theorem State.dueAt_map {α : Type} (start : Option α) (f : α → Nat) (i : Instr) (s : State) :
    s.dueAt (start.map f) i = if start.any fun x => decide (f x ≤ s.now) then some i else none := by
  rw [State.dueAt, dueIf, Option.any_map]

theorem State.dueSag_eq (s : State) :
    s.dueSag = if ripe s.ca.tsagCand then some (if s.ca.sag = none then .sagAssert else .sagRelease) else none := by
  unfold State.dueSag dueIf
  cases s.ca.sag <;> rfl

theorem Polarity.activeLevel_eq (p : Polarity) : p.activeLevel = decide (p = .activeHigh) := by
  cases p <;> rfl

theorem State.dueLine_eq (s : State) (n : Fin 4) :
    s.dueLine n = if ripe (s.li.cands.get n) then
      some (if s.li.accepted.get n = decide ((s.cfg.lines.get n).polarity = .activeHigh) then .lineInactiveChange n
        else .lineEdge n) else none := by
  rw [State.dueLine, dueIf, Polarity.activeLevel_eq]

theorem State.duePwmOn_eq (s : State) (c : Fin 4) :
    s.duePwmOn c = if (decide ((s.ld.activePairs.get c).off ≠ 0) && decide (s.ld.outputs.get c ≠ 0) &&
        s.ld.pwmStart.any fun start =>
          decide (start + ((s.ld.activePairs.get c).on * 100 + 1023) / 1024 ≤ s.now)) = true then
      some (.pwmOnEnd c) else none := by
  unfold State.duePwmOn
  dsimp only
  rw [State.dueAt_map]
  by_cases whole : (s.ld.activePairs.get c).off = 0
  · simp [whole]
  by_cases dark : s.ld.outputs.get c = 0
  · simp [dark]
  · simp only [whole, dark, or_self, if_false, ne_eq, not_false_eq_true, decide_true, Bool.true_and]
    rfl

/-- What is due of the current frame, as the first of its four events (R78). -/
theorem State.dueFrame_eq {s : State} {f : FrameRecord} (current : s.fs.current = some f) :
    s.dueFrame = [if (decide (s.fs.phase = .pre) && decide (s.ld.mode = .strobe ∧ s.fs.windowOpen = false) &&
          decide (s.fs.strobeAt ≤ s.now)) = true then some Instr.strobeOn else none,
        if (decide (s.fs.phase = .pre) && !decide (s.ld.mode = .strobe ∧ s.fs.windowOpen = false) &&
          decide (s.fs.exposeAt ≤ s.now)) = true then some .exposureStart else none,
        if (decide (s.fs.phase = .expose) && f.capture.isNone && decide (s.fs.midpointAt ≤ s.now)) = true then
          some .midpointCapture else none,
        if (decide (s.fs.phase = .expose) && f.capture.isSome && decide (s.fs.endAt ≤ s.now)) = true then
          some .exposureEnd else none].findSome? id := by
  have at_ (t : Nat) (i : Instr) : s.dueAt (some t) i = if decide (t ≤ s.now) then some i else none := rfl
  unfold State.dueFrame
  simp only [current, at_]
  cases phase : s.fs.phase with
  | none => rfl
  | guard => rfl
  | pre =>
    by_cases strobed : s.ld.mode = .strobe ∧ s.fs.windowOpen = false
    · by_cases due : s.fs.strobeAt ≤ s.now <;> simp [strobed, due]
    · by_cases due : s.fs.exposeAt ≤ s.now <;> simp [strobed, due]
  | expose =>
    cases f.capture with
    | none => by_cases due : s.fs.midpointAt ≤ s.now <;> simp [due]
    | some c => by_cases due : s.fs.endAt ≤ s.now <;> simp [due]

theorem FrameSequencer.current_cases (fs : FrameSequencer) :
    (fs.current = none ∧ (fs.phase = .none ∨ fs.ring.getLast? = none)) ∨
    ∃ f, fs.current = some f ∧ fs.ring.getLast? = some f := by
  unfold FrameSequencer.current
  by_cases phase : fs.phase = .none
  · exact .inl ⟨if_pos phase, .inl phase⟩
  · rw [if_neg phase]
    cases last : fs.ring.getLast? with
    | none => exact .inl ⟨rfl, .inr rfl⟩
    | some f => exact .inr ⟨f, rfl, rfl⟩

/-- The four frame events of a list of what is due, written on the newest record of the ring. -/
theorem State.dueFrame_events (s : State) :
    let once : (FrameRecord → Bool) → Instr → Option Instr := fun c i => if s.fs.ring.getLast?.any c then some i else none
    let pre := decide (s.fs.phase = .pre)
    let exposing := decide (s.fs.phase = .expose)
    let strobed := decide (s.ld.mode = .strobe ∧ s.fs.windowOpen = false)
    let at_ : Nat → Bool := fun us => decide (s.fs.frameStart + 2 * us ≤ s.now)
    s.dueFrame = [once (fun f => pre && strobed && at_ (s.fs.period - 2000 - f.t - 20)) .strobeOn,
      once (fun f => pre && !strobed && at_ (s.fs.period - 2000 - f.t)) .exposureStart,
      once (fun f => exposing && f.capture.isNone && at_ (s.fs.period - 2000 - f.t + f.t / 2)) .midpointCapture,
      once (fun f => exposing && f.capture.isSome && at_ (s.fs.period - 2000)) .exposureEnd].findSome? id := by
  intro once pre exposing strobed at_
  rcases s.fs.current_cases with ⟨absent, idle | noRecord⟩ | ⟨f, current, last⟩
  · simp [State.dueFrame, absent, once, pre, exposing, idle]
  · simp [State.dueFrame, absent, once, noRecord]
  · have exposure : s.fs.exposure = f.t := by rw [FrameSequencer.exposure, current]
    rw [State.dueFrame_eq current, FrameSequencer.strobeAt, FrameSequencer.exposeAt, FrameSequencer.midpointAt, exposure]
    simp only [once, last, Option.any_some]
    rfl

theorem State.dueDwell_eq (s : State) :
    s.dueDwell = if (!s.ld.dwell && decide (s.cfg.dwellTime ≠ 0) && s.sq.isEmpty &&
        s.ld.standstill.any fun start => decide (s.cfg.dwellTime ≤ (s.now - start) / 2000)) = true then
      some .dwellStart else none := by
  unfold State.dueDwell dueIf State.dwellReached State.standstillMs msOfTicks
  cases s.ld.standstill <;> cases s.sq.isEmpty <;> simp [Bool.and_assoc]

theorem State.dueGap_eq (s : State) :
    s.dueGap = if (decide (s.pi.receivers.surface ≠ .hunt) && decide (s.pi.lastByte + 10001 ≤ s.now)) = true then
      some .surfaceByteGapTimeout else none := by
  unfold State.dueGap
  by_cases waits : s.pi.receivers.surface = .hunt
  · simp [waits]
  · simp only [waits, if_false, ne_eq, not_false_eq_true, decide_true, Bool.true_and]
    rfl

/-- A list one of whose entries is the first of a list has the first of the two lists in one. -/
theorem findSome_spliced {α : Type} (before inner after : List (Option α)) :
    (before ++ inner.findSome? id :: after).findSome? id = (before ++ (inner ++ after)).findSome? id := by
  rw [List.findSome?_append, List.findSome?_append, List.findSome?_append, List.findSome?_cons]
  cases inner.findSome? id <;> rfl

/-- Settles O2. -/
theorem everyStepAnswersNextState : Obligations.EveryStepAnswersNextState := by
  refine ⟨step_answers, fun s empty running => ?_,
    fun s empty held => ⟨step_held_silent empty held, fun w rest input => ?_⟩⟩
  · intro once past ripe_ line claim lit frame pre exposing strobed at_ slot baud events
    have sags : s.dueSag = once (ripe_ s.ca.tsagCand) (if s.ca.sag = none then .sagAssert else .sagRelease) := s.dueSag_eq
    have lines (n : Fin 4) : s.dueLine n = line n := s.dueLine_eq n
    have claims (p : Port) : s.dueClaim p = claim p := by
      simp only [State.dueClaim, claim]
      cases (s.ca.claims.get p).state <;> rfl
    have lits (c : Fin 4) : s.duePwmOn c = lit c := s.duePwmOn_eq c
    have slots (b : BusPort) : s.dueSlot b = slot b := by
      simp only [State.dueSlot, slot]
      cases s.pi.slot b <;> rfl
    have settles : s.dueSettle = once (s.hc.seq.any fun q => match q.settle with
          | .running due => past due
          | _ => false) .settleExpiry := by
      unfold State.dueSettle
      cases s.hc.seq with
      | none => rfl
      | some q => cases settle : q.settle <;> simp [State.dueAt, dueIf, settle, once, past]
    have halts : s.dueHalt = once (s.hc.seq.any fun q => q.haltDue.any past) .haltTimeout := by
      unfold State.dueHalt
      cases s.hc.seq <;> rfl
    have entries : s.dueEvents =
        events.take 18 ++ ((events.drop 18).take 4).findSome? id :: events.drop 22 := by
      rw [State.dueEvents, sags, lines, lines, lines, lines, State.dueLow, State.dueAt_map, State.dueSilence,
        State.silenceReached_eq, claims, claims, claims, lits, lits, lits, lits, State.duePwm, State.dueAt_map,
        State.dueFrame_events, State.dueDwell_eq, settles, halts, State.dueAt_map, State.dueAt_map, State.dueGap_eq,
        State.dueSent, State.dueAt_map, slots, slots]
      rfl
    have same : s.dueEvent = events.findSome? id := by
      rw [State.dueEvent, entries, findSome_spliced]
      rfl
    exact ⟨same, fun i first => step_due empty running (same.trans first)⟩
  · rw [step_held empty held input]
    cases w <;> rfl

end Sys2Proof.Machine
end

section
/-! The luma line (R84, R189) and the input filters and lines (R1, R72, R179, R180). -/

namespace Sys2Proof.Machine

/-! ### Luma reports -/

theorem exec_lumaReport {tag : Byte} {luma : Half} {s : State} (running : s.resetLine = false) :
    exec (.lumaReport tag luma) s = .next (s.takeLuma tag luma) :=
  congrArg Host.Outcome.next (State.whenRunning_running _ running)

theorem exec_lrckLowPeriod {s : State} (running : s.resetLine = false) : exec .lrckLowPeriod s = .next s.lowPeriod :=
  congrArg Host.Outcome.next (State.whenRunning_running _ running)

theorem FrameSequencer.takesLuma_iff (fs : FrameSequencer) (tag : Byte) (f : FrameRecord) :
    fs.takesLuma tag f = true ↔ f.number.truncate 8 = tag ∧ f.luma = none ∧
      ¬ (f.number = fs.frameNumber ∧ (fs.phase = .pre ∨ fs.phase = .expose)) := by
  have low : frameTag f.number = f.number.truncate 8 := by
    apply BitVec.eq_of_toNat_eq
    simp [frameTag]
  unfold FrameSequencer.takesLuma
  rw [low]
  simp [and_assoc, imp_iff_not_or]

/-- In a ring of consecutive numbers the place of a record is its number above the first. -/
theorem consecutive_number {f : FrameRecord} {ring : List FrameRecord} (numbers : consecutive (f :: ring)) {i : Nat}
    {g : FrameRecord} (place : (f :: ring)[i]? = some g) : g.number = f.number + BitVec.ofNat 32 i := by
  induction ring generalizing f i with
  | nil =>
    cases i with
    | zero =>
      cases place
      simp
    | succ i => simp at place
  | cons r rest ih =>
    cases i with
    | zero =>
      cases place
      simp
    | succ i =>
      obtain ⟨next, others⟩ := numbers
      rw [ih others place, next, BitVec.add_assoc, BitVec.ofNat_add, BitVec.add_comm 1]
      rfl

/-- In a ring of four or fewer, records with the same tag stand at the same place (R84). -/
theorem consecutive_tag_inj {ring : List FrameRecord} (numbers : consecutive ring) (short : ring.length ≤ 4)
    {i j : Nat} {f g : FrameRecord} (at_i : ring[i]? = some f) (at_j : ring[j]? = some g)
    (tags : f.number.truncate 8 = g.number.truncate 8) : i = j := by
  obtain ⟨below_i, -⟩ := List.getElem?_eq_some_iff.mp at_i
  obtain ⟨below_j, -⟩ := List.getElem?_eq_some_iff.mp at_j
  cases ring with
  | nil => simp at below_i
  | cons first rest =>
    rw [consecutive_number numbers at_i, consecutive_number numbers at_j] at tags
    have sums := congrArg BitVec.toNat tags
    simp at sums
    omega

/-- Another record of such a ring has another tag. -/
theorem consecutive_other {older newer : List FrameRecord} {f g : FrameRecord} (numbers : consecutive (older ++ f :: newer))
    (short : (older ++ f :: newer).length ≤ 4) (other : g ∈ older ∨ g ∈ newer) :
    g.number.truncate 8 ≠ f.number.truncate 8 := by
  intro tags
  have own : (older ++ f :: newer)[older.length]? = some f := by simp
  rcases other with before | after
  · obtain ⟨i, place⟩ := List.mem_iff_getElem?.mp before
    obtain ⟨below, -⟩ := List.getElem?_eq_some_iff.mp place
    have at_i : (older ++ f :: newer)[i]? = some g := by
      rw [List.getElem?_append_left below]
      exact place
    have := consecutive_tag_inj numbers short at_i own tags
    omega
  · obtain ⟨i, place⟩ := List.mem_iff_getElem?.mp after
    have at_i : (older ++ f :: newer)[older.length + (i + 1)]? = some g := by
      rw [List.getElem?_append_right (by omega)]
      simp [place]
    have := consecutive_tag_inj numbers short at_i own tags
    omega

theorem FrameSequencer.lumaInto_eq (fs : FrameSequencer) (tag : Byte) (luma : Nat) (f : FrameRecord) :
    fs.lumaInto tag luma f = if f.number.truncate 8 = tag ∧ f.luma = none ∧
        ¬ (f.number = fs.frameNumber ∧ (fs.phase = .pre ∨ fs.phase = .expose)) then
      { f with luma := some (min luma 1023) } else f := by
  unfold FrameSequencer.lumaInto
  simp only [FrameSequencer.takesLuma_iff]

theorem State.takeLuma_eq (tag : Byte) (luma : Half) (s : State) :
    s.takeLuma tag luma = { s with
      sp := { s.sp with bits := [], armed := false }
      fs := { s.fs with ring := s.fs.ring.map (s.fs.lumaInto tag luma.toNat) } } := rfl

/-- The one record that a report fills. -/
theorem FrameSequencer.map_lumaInto {fs : FrameSequencer} {tag : Byte} {luma : Nat} {older newer : List FrameRecord}
    {f : FrameRecord} (numbers : consecutive (older ++ f :: newer)) (short : (older ++ f :: newer).length ≤ 4)
    (low : f.number.truncate 8 = tag) (unfilled : f.luma = none)
    (exposed : ¬ (f.number = fs.frameNumber ∧ (fs.phase = .pre ∨ fs.phase = .expose))) :
    (older ++ f :: newer).map (fs.lumaInto tag luma) =
      older ++ { f with luma := some (min luma 1023) } :: newer := by
  have kept {g : FrameRecord} (other : g ∈ older ∨ g ∈ newer) : fs.lumaInto tag luma g = g := by
    rw [FrameSequencer.lumaInto_eq]
    exact if_neg fun ⟨same, _⟩ => consecutive_other numbers short other (same.trans low.symm)
  rw [List.map_append, List.map_cons, List.map_congr_left (fun g mem => kept (.inl mem)),
    List.map_congr_left (fun g mem => kept (.inr mem)), FrameSequencer.lumaInto_eq, if_pos ⟨low, unfilled, exposed⟩]
  simp

/-! ### The luma line -/

theorem packBits_testBit (bits : List Bool) (i : Nat) : (packBits bits).testBit i = bits.getD i false := by
  induction bits generalizing i with
  | nil => simp [packBits]
  | cons b bs ih =>
    cases i with
    | zero => cases b <;> simp [packBits]
    | succ i =>
      have half : (b.toNat + 2 * packBits bs) / 2 = packBits bs := by
        cases b
        · simp
        · simp only [Bool.toNat_true]
          omega
      rw [packBits, Nat.testBit_succ, half, ih]
      simp

theorem lumaFields_tag {bits : List Bool} {i : Nat} (below : i < 8) :
    (lumaFields bits).1.getLsbD i = bits.getD i false := by
  rw [lumaFields, BitVec.getLsbD_ofNat, packBits_testBit, decide_eq_true below, Bool.true_and]
  simp [List.getD_eq_getElem?_getD, below]

theorem lumaFields_luma {bits : List Bool} {i : Nat} (below : i < 16) :
    (lumaFields bits).2.getLsbD i = bits.getD (i + 8) false := by
  rw [lumaFields, BitVec.getLsbD_ofNat, packBits_testBit, decide_eq_true below, Bool.true_and]
  simp [List.getD_eq_getElem?_getD, Nat.add_comm]

theorem State.lrckRise_high {lrd : Bool} {s : State} (high : s.pins.lrck = true) : s.lrckRise lrd = .next s := by
  simp only [State.lrckRise, high, if_true]

/-- A rising edge meets an assembly that waits for a low period, or one that is armed (R189). -/
theorem State.lrckRise_low {lrd : Bool} {s : State} (low : s.pins.lrck = false) :
    let risen : State := { s with
      pins := { s.pins with lrck := true }, sp := { s.sp with lowSince := none } }
    let bits := s.sp.bits ++ [lrd]
    s.lrckRise lrd = if s.sp.armed then
        if bits.length < 24 then .next { risen with sp := { risen.sp with bits := bits } }
        else exec (.lumaReport (lumaFields bits).1 (lumaFields bits).2) risen
      else .next risen := by
  unfold State.lrckRise
  rw [if_neg (by rw [low]; decide)]
  rfl

/-- Filters without a candidate have nothing due. -/
theorem State.dueLow_first {s : State} {since : Nat} (low : s.sp.lowSince = some since) (past_ : since + 40 ≤ s.now)
    (a : s.cu.candA = none) (b : s.cu.candB = none) (tsag : s.ca.tsagCand = none) (lines : s.li.cands = .all none) :
    s.dueEvent = some .lrckLowPeriod := by
  have quiet (n : Fin 4) : s.dueLine n = none := by
    rw [State.dueLine, lines]
    fin_cases n <;> rfl
  have due : s.dueLow = some .lrckLowPeriod := by
    rw [State.dueLow, State.dueAt_map, low]
    exact if_pos (decide_eq_true past_)
  have wheel : s.dueWheel = none := by simp [State.dueWheel, dueIf, ripe, a, b]
  have sag : s.dueSag = none := by simp [State.dueSag, dueIf, ripe, tsag]
  rw [State.dueEvent, State.dueEvents, wheel, sag, quiet, quiet, quiet, quiet, due]
  rfl

/-- Settles O38. -/
theorem lumaReportFillsOneRecord : Obligations.LumaReportFillsOneRecord := by
  refine ⟨fun s running => ⟨exec_lrckLowPeriod running, fun tag luma => ?_⟩, fun tag luma older newer f s running sound short
    ring low unfilled exposed => ?_, fun lrd rest s empty running none_due => ?_, fun since s empty running low old a b tsag lines => ?_⟩
  · rw [exec_lumaReport running, State.takeLuma_eq]
    have clamp : min luma.toNat 1023 = if 1023 < luma.toNat then 1023 else luma.toNat := by split <;> omega
    have filled (f : FrameRecord) := s.fs.lumaInto_eq tag luma.toNat f
    simp only [clamp] at filled
    rw [funext filled]
  · rw [exec_lumaReport running, State.takeLuma_eq, ring,
      FrameSequencer.map_lumaInto (ring ▸ sound.2.2.1) (ring ▸ short) low unfilled exposed, Nat.min_comm]
  · intro u high bits
    refine ⟨fun falls => ⟨fun low => ?_, fun up => ?_⟩,
      fun rises => ⟨fun up => ?_, fun low waits => ?_, fun low armed part => ?_, fun low armed whole => ?_⟩⟩
    · rw [step_wire empty running none_due falls]
      exact congrArg _ (if_neg (by rw [low]; decide))
    · rw [step_wire empty running none_due falls]
      exact congrArg _ (if_pos up)
    · rw [step_wire empty running none_due rises]
      exact State.lrckRise_high up
    · rw [step_wire empty running none_due rises]
      exact (State.lrckRise_low (s := u) low).trans (if_neg (by rw [waits]; decide))
    · rw [step_wire empty running none_due rises]
      exact (State.lrckRise_low (s := u) low).trans ((if_pos armed).trans (if_pos part))
    · refine ⟨(lumaFields bits).1, (lumaFields bits).2, ?_, fun i below => lumaFields_tag below,
        fun i below => lumaFields_luma below⟩
      rw [step_wire empty running none_due rises]
      exact (State.lrckRise_low (s := u) low).trans ((if_pos armed).trans (if_neg (by rw [whole]; decide)))
  · exact step_due empty running (State.dueLow_first low old a b tsag lines)

end Sys2Proof.Machine
end

section
/-! The input filters (R1, R72, R179) and the functions of the lines (R180). -/

namespace Sys2Proof.Machine

theorem exec_lineEdge {n : Fin 4} {s : State} (running : s.resetLine = false) :
    exec (.lineEdge n) s = .next (s.activeEdge n) :=
  congrArg Host.Outcome.next (State.whenRunning_running _ running)

theorem exec_lineInactiveChange {n : Fin 4} {s : State} (running : s.resetLine = false) :
    exec (.lineInactiveChange n) s = .next (s.inactiveChange n) :=
  congrArg Host.Outcome.next (State.whenRunning_running _ running)

/-! ### Samples -/

theorem filterSample_eq (accepted level : Bool) (width : Nat) (c : Option Candidate) :
    filterSample accepted level width c = if level = accepted then none
      else some ⟨(c.map fun c => c.age + 1).getD 0, decide (width ≤ (c.map fun c => c.age + 1).getD 0)⟩ := by
  unfold filterSample
  cases c <;> rfl

theorem State.samplePins_eq (s : State) :
    let line : Fin 4 → Option Candidate := fun n =>
      filterSample (s.li.accepted.get n) (s.pins.lines.get n) (s.cfg.lineWidth n) (s.li.cands.get n)
    s.samplePins = { s with
      cu := { s.cu with
        candA := filterSample s.cu.phaseA s.pins.wa s.cfg.glitchWidth s.cu.candA
        candB := filterSample s.cu.phaseB s.pins.wb s.cfg.glitchWidth s.cu.candB }
      ca := { s.ca with tsagCand := filterSample s.ca.sag.isSome s.pins.tsag tsagWidth s.ca.tsagCand }
      li := { s.li with cands := ⟨line 0, line 1, line 2, line 3⟩ } } := rfl

/-! ### The order of what the filters have accepted (log 4) -/

theorem State.dueWheel_first {s : State} (accepted : ripe s.cu.candA = true ∨ ripe s.cu.candB = true) :
    s.dueEvent = some (.wheelFilterAccept (s.cu.phaseA ^^ ripe s.cu.candA) (s.cu.phaseB ^^ ripe s.cu.candB)) :=
  State.dueEvent_of_head (congrArg (· :: _) (if_pos (by simpa using accepted)))

theorem State.dueWheel_none {s : State} (a : ripe s.cu.candA = false) (b : ripe s.cu.candB = false) :
    s.dueWheel = none := by
  simp [State.dueWheel, dueIf, a, b]

theorem State.dueSag_first {s : State} (wheel : s.dueWheel = none) (accepted : ripe s.ca.tsagCand = true) :
    s.dueEvent = some (if s.ca.sag = none then .sagAssert else .sagRelease) := by
  rw [State.dueEvent, State.dueEvents, wheel, State.dueSag_eq, if_pos accepted]
  rfl

theorem State.dueLine_first {s : State} {n : Fin 4} (wheel : s.dueWheel = none) (tsag : ripe s.ca.tsagCand = false)
    (accepted : ripe (s.li.cands.get n) = true) (before : ∀ m, m < n → ripe (s.li.cands.get m) = false) :
    s.dueEvent = some (if s.li.accepted.get n = decide ((s.cfg.lines.get n).polarity = .activeHigh) then
      .lineInactiveChange n else .lineEdge n) := by
  have sag : s.dueSag = none := by simp [State.dueSag, dueIf, tsag]
  have quiet (m : Fin 4) (below : m < n) : s.dueLine m = none := by simp [State.dueLine, dueIf, before m below]
  have own : s.dueLine n = some (if s.li.accepted.get n = decide ((s.cfg.lines.get n).polarity = .activeHigh) then
      .lineInactiveChange n else .lineEdge n) := by
    rw [State.dueLine_eq, if_pos accepted]
  rw [← own, State.dueEvent, State.dueEvents, wheel, sag]
  obtain rfl | rfl | rfl | rfl : n = 0 ∨ n = 1 ∨ n = 2 ∨ n = 3 := by omega
  · rw [own]
    rfl
  · rw [quiet 0 (by decide), own]
    rfl
  · rw [quiet 0 (by decide), quiet 1 (by decide), own]
    rfl
  · rw [quiet 0 (by decide), quiet 1 (by decide), quiet 2 (by decide), own]
    rfl

/-- Settles O52. -/
theorem lineEdgePerformsItsFunction : Obligations.LineEdgePerformsItsFunction := by
  refine ⟨fun n s running => ?_, fun p s => ?_, fun s empty running => ?_⟩
  · rw [exec_lineEdge running, exec_lineInactiveChange running]
    intro level accepted e
    have edge : s.activeEdge n = e.lineFunction n := by
      simp only [State.activeEdge, e, accepted, level, State.acceptLine]
      cases (s.cfg.lines.get n).polarity <;> rfl
    rw [edge]
    refine ⟨?_, fun function => ?_, fun function => ?_, fun function => ?_, fun function => ?_, fun function => ?_⟩
    · simp only [State.inactiveChange, accepted, level, State.acceptLine]
      cases (s.cfg.lines.get n).polarity <;> rfl
    · simp only [State.lineFunction, e, accepted, function]
    · have zero : e.lineFunction n = e.rereference s.cfg.zeroOffset (.line n) := by
        simp only [State.lineFunction, e, accepted, function]
      rw [zero]
      refine ⟨rfl, _, rfl, fun low high => ?_⟩
      simp only [State.rereference_eq, State.moved, State.setEventAll_frame, State.journal_frame]
      rw [if_neg (by omega), if_neg (by omega)]
      exact ⟨rfl, decide_eq_false (by omega)⟩
    · simp only [State.lineFunction, e, accepted, function]
      rfl
    · simp only [State.lineFunction, e, accepted, function]
    · have resume : e.lineFunction n = e.lineResume n := by
        simp only [State.lineFunction, e, accepted, function]
      rw [resume]
      refine ⟨fun idle => ?_, fun q going => ?_⟩
      · simp only [State.lineResume, e, accepted, idle]
      · have ends : e.lineResume n = e.endHalt q .resumed (some (.line n)) := by
          simp only [State.lineResume, e, accepted, going]
        rw [ends, State.endHalt, State.setSeq_ends (s := e) going]
        rfl
  · intro seen line sampled empty running none_due
    have same (a l : Bool) (w : Nat) (c : Option Candidate) : filterSample a l w c = seen a l w c := filterSample_eq a l w c
    have ticks : s.tick p = sampled := by
      rw [State.tick, State.samplePins_eq]
      simp only [same]
      rfl
    refine ⟨fun rest input => ?_, fun silent pins => ?_⟩
    · rw [step_wire empty running none_due input]
      exact congrArg (fun t : State => Host.Outcome.next { t with inputs := rest }) ticks
    · rw [step_tick empty running none_due silent, ← pins, ticks]
  · intro ripe_ a b
    refine ⟨fun phases => step_due empty running (State.dueWheel_first phases),
      fun na nb tsag => step_due empty running (State.dueSag_first (State.dueWheel_none na nb) tsag),
      fun na nb tsag n accepted before =>
        step_due empty running (State.dueLine_first (State.dueWheel_none na nb) tsag accepted before)⟩

end Sys2Proof.Machine
end

section
/-! RESTART (R183 to R185). -/

namespace Sys2Proof.Machine

/-- What the journal becomes by a record depends on the journal and the published state alone. -/
theorem State.journal_jn_congr {s t : State} (jn : t.jn = s.jn) (published : t.cu.published = s.cu.published) (b : Body) :
    (t.journal b).jn = (s.journal b).jn := by
  have header : t.header = s.header := by rw [State.header, published]; rfl
  have clock : t.cu.runClock = s.cu.runClock := congrArg Published.runClock published
  have dropped := State.countDrop_congr jn clock
  unfold State.journal State.handRecord
  dsimp only
  rw [jn, header, dropped]
  split
  · exact dropped
  split
  · split
    · simp only [State.storeRecord_jn, jn]
    · exact dropped
  split
  · split
    · simp only [State.clearDrops, State.storeRecord_jn, dropped]
    · exact dropped
  · split
    · simp only [State.clearDrops, State.storeRecord_jn, jn]
    · exact dropped

/-- The state after RESTART's step 1: a RESEED, or nothing (R9, R183). -/
def State.chosen (reseed : Bool) (s : State) : State := if reseed then s.reseed else s

/-- The state that RESTART's steps 2 to 8 leave, before its record (R184). -/
def State.restarted (s : State) : State :=
  { s with
    wt := s.wt.map (Slot.resided s.cu.chainage)
    ca := { s.ca with claims := .all ⟨0, 0, .settled⟩, queue := [] }
    hc := { s.hc with seq := none }
    sq := []
    fs := { s.fs with
      phase := .none, windowOpen := false, ring := [], reportMark := none
      carried := s.cfg.dMax / 4 * (s.cfg.userExposure / 2) }
    ld := { s.ld with
      pendingLevels := .all 0, activeLevels := .all 0, outputs := .all 0, pwmStart := none
      pendingPairs := .all ⟨0, 1024, 0⟩, activePairs := .all ⟨0, 1024, 0⟩, dwell := false
      standstill := if s.cu.velocity = 0 then some s.now else none }
    pi := { s.pi with latches := .all (Event.bit .restart) } }

@[simp] theorem State.dropHaltAndStills_halts (s : State) :
    s.dropHaltAndStills.hc = { s.hc with seq := none } ∧ s.dropHaltAndStills.sq = [] := by
  unfold State.dropHaltAndStills State.setSeq
  dsimp only
  split
  · simp
  split <;> simp

theorem State.restartLamps_ld (s : State) (idle : s.hc.seq = none) :
    s.restartLamps.ld = { s.ld with
      pendingLevels := .all 0, activeLevels := .all 0, outputs := .all 0, pwmStart := none
      pendingPairs := .all ⟨0, 1024, 0⟩, activePairs := .all ⟨0, 1024, 0⟩, dwell := false
      standstill := if s.cu.velocity = 0 then some s.now else none } := by
  simp [State.restartLamps, State.startStandstill, idle, LampDriver.restart, LampDriver.cut]

/-- The record is made of what RESTART keeps. -/
theorem State.restarted_journal (s : State) : (s.restarted.journal .restart).jn = (s.journal .restart).jn :=
  State.journal_jn_congr (t := s.restarted) (s := s) rfl rfl _

/-- Over RESTART's own event the ports whose cursor its record reaches have JOURNAL too (R158, R184). -/
theorem State.restarted_latch (s : State) (p : Port) :
    (s.restarted.journal .restart).pi.latches.get p = Event.bit .restart |||
      (if s.jn.next ≤ s.jn.cursors.get p ∧ s.jn.cursors.get p < (s.journal .restart).jn.next then Event.bit .journal
        else 0) := by
  have own : s.restarted.pi.latches.get p = Event.bit .restart := by cases p <;> rfl
  rw [State.journal, State.handRecord_latch, own, ← s.restarted_journal]
  rfl

theorem State.emptyLatches_restart (s : State) :
    (s.emptyLatches.setEventAll .restart).pi = { s.pi with latches := .all (Event.bit .restart) } := by
  simp [State.setEventAll, State.setEvent, State.emptyLatches, PerPort.get, PerPort.set, PerPort.all]

/-- RESTART's record is made in the state that its steps 2 to 8 have left (R184). -/
theorem State.restart_eq (reseed : Bool) (s : State) :
    s.restart reseed = (s.chosen reseed).restarted.journal .restart := by
  unfold State.restart
  dsimp only
  refine congrArg (State.journal .restart) ?_
  change (((s.chosen reseed).recomputeSides.clearClaims.dropHaltAndStills.abandonFrame.restartLamps).emptyLatches).setEventAll
    .restart = (s.chosen reseed).restarted
  generalize s.chosen reseed = u
  unfold State.restarted
  refine State.eq_of_fields (ca := ?_) (fs := ?_) (ld := ?_) (hc := ?_) (pi := ?_) (wt := ?_)
  · simp [State.recomputeSides]
  · simp [State.clearClaims]
  · simp [State.abandonFrame, initialProduct]
  · have dwell : OnlyDwell u.recomputeSides.clearClaims.dropHaltAndStills.abandonFrame u := by simp
    simp only [State.setEventAll_frame, State.emptyLatches_frame]
    rw [State.restartLamps_ld _ (by simp [State.abandonFrame]), dwell.ld_eq]
    simp
  · simp [State.abandonFrame]
  · have latches : OnlyLatches u.recomputeSides.clearClaims.dropHaltAndStills.abandonFrame u := by simp
    have lamps (v : State) : v.restartLamps.pi = v.pi := by simp
    rw [State.emptyLatches_restart, lamps, latches.pi_eq]

/-! ### What RESTART leaves -/

theorem State.reseed_found {s : State} (lost : s.cu.cableLost = true) :
    s.reseed = { s with cu := { s.cu with reelSeed := none } } := if_pos lost

theorem State.reseed_loses {s : State} (sound : s.cu.cableLost = false) :
    s.reseed = ({ s with cu := { s.cu with reelSeed := none } } : State).loseCable :=
  if_neg (show ¬ s.cu.cableLost = true by simp [sound])

theorem State.reseed_cu (s : State) :
    s.reseed.cu = { s.cu with
      reelSeed := none, cableLost := true
      silenceStart := if s.cu.cableLost then s.cu.silenceStart else none
      trusted := if s.cu.cableLost then s.cu.trusted
        else trustedTrack s.cfg.sourceMode s.cu.agreement s.cu.wheelFault true } := by
  cases lost : s.cu.cableLost with
  | true => simp [State.reseed_found lost, lost]
  | false => simp [State.reseed_loses lost, State.loseCable_cu]

/-- A RESEED that loses the cable journals it once, over the unit that it leaves (R9, R14). -/
theorem State.reseed_jn {s : State} (sound : s.cu.cableLost = false) :
    s.reseed.jn = (({ s with cu := s.reseed.cu } : State).journal
      (.state ⟨false, false, true, false⟩ s.cu.agreement s.cu.agreement s.cu.wheelFault true)).jn := by
  rw [State.reseed_loses sound, State.loseCable_eq]
  simp

theorem reseedOfCode_refused {n : Nat} (large : 1 < n) : reseedOfCode n = none := by
  obtain ⟨n, rfl⟩ := Nat.exists_eq_add_of_le' (Nat.succ_le_of_lt large)
  rfl

theorem actRestart_refused {choice : Byte} (p : Port) (large : 1 < choice.toNat) (s : State) :
    actRestart p choice s = (s, bare .range) := by
  rw [actRestart, reseedOfCode_refused large]

theorem actRestart_taken {choice : Byte} (p : Port) (small : choice.toNat ≤ 1) (s : State) :
    actRestart p choice s = (s.restart (decide (choice = 1)), bare .ok) := by
  have one : decide (choice = 1) = decide (choice.toNat = 1) :=
    decide_eq_decide.mpr (BitVec.toNat_inj (y := 1#8)).symm
  rw [actRestart, one]
  interval_cases code : choice.toNat <;> rfl

theorem exec_restart {choice : Byte} {s : State} (h : s.accepts .surface 0x05 [choice]) :
    exec (.restart .surface [choice]) s =
      .next (State.answeredWith .surface 0x05 (actRestart .surface choice (s.heard .surface))) :=
  congrArg Host.Outcome.next (State.request_acts h (fun _ => by decide) rfl rfl)

/-- Settles O53. -/
theorem restartClearsThePowerSideAndKeepsTheSurvey : Obligations.RestartClearsThePowerSideAndKeepsTheSurvey := by
  intro choice s accepted h
  refine ⟨fun large => ?_, fun small => ?_⟩
  · rw [exec_restart accepted, actRestart_refused _ large]
    rfl
  have linked : h.hc.linkHalt = false := by rw [State.heard_surface_halt]
  have taken : exec (.restart .surface [choice]) s =
      .next ((h.restart (decide (choice = 1))).answered .surface 0x05 .ok []) := by
    rw [exec_restart accepted, actRestart_taken _ small]
    rfl
  refine ⟨_, taken, ?_⟩
  clear_value h
  rw [State.restart_eq]
  generalize reseeded : h.chosen (decide (choice = 1)) = u
  have kept : SameBase u h ∧ u.now = h.now ∧ u.wt = h.wt ∧ u.ca = h.ca ∧ u.fs = h.fs ∧ u.ld = h.ld ∧ u.hc = h.hc ∧
      OnlyRecords u h ∧ OnlyLatches u h ∧ u.li = h.li ∧ u.sp = h.sp ∧ u.cu.velocity = h.cu.velocity ∧
      u.cu.chainage = h.cu.chainage := by
    rw [← reseeded, State.chosen]
    split <;> simp [State.reseed_cu]
  have keeps : choice = 0 → u = h := by
    rintro rfl
    exact reseeded.symm
  have reseeds : choice = 1 → u = h.reseed := by
    rintro rfl
    exact reseeded.symm
  have which : choice = 0 ∨ choice = 1 := by
    rcases Nat.le_one_iff_eq_zero_or_eq_one.mp small with zero | one
    · exact .inl (BitVec.eq_of_toNat_eq zero)
    · exact .inr (BitVec.eq_of_toNat_eq one)
  obtain ⟨base, now, wt, ca, fs, ld, hc, records, latches, li, sp, velocity, chainage⟩ := kept
  have cu : (u.restarted.journal .restart).cu = u.cu := by simp [State.restarted]
  have jn : (u.restarted.journal .restart).jn = (u.journal .restart).jn := u.restarted_journal
  have unjournaled : choice = 0 ∨ h.cu.cableLost = true → u.jn = h.jn ∧ u.cu.published = h.cu.published := by
    intro quiet
    rcases which with zero | one
    · rw [keeps zero]
      exact ⟨rfl, rfl⟩
    · have lost : h.cu.cableLost = true := quiet.resolve_left (by rw [one]; decide)
      rw [reseeds one, State.reseed_found lost]
      exact ⟨rfl, rfl⟩
  have journaled : ¬ (choice = 0 ∨ h.cu.cableLost = true) → u.jn = (({ h with cu := u.cu } : State).journal
      (.state ⟨false, false, true, false⟩ h.cu.agreement h.cu.agreement h.cu.wheelFault true)).jn := by
    intro loses
    rw [reseeds (which.resolve_left fun zero => loses (.inl zero))]
    exact State.reseed_jn (Bool.eq_false_of_not_eq_true fun lost => loses (.inr lost))
  rw [cu, jn]
  refine ⟨?_, ?_, ?_, ?_, ?_, ?_, ?_, ?_, ?_, ?_, ?_, ?_, ?_, ?_, ?_, ?_, ?_, ?_, ?_, ?_⟩
  · simp [State.restarted, ca]
  · simp [State.restarted, hc, linked]
  · simp [State.restarted]
  · simp [State.restarted, fs, base]
  · simp [State.restarted, ld, velocity, now]
  · intro first p
    have number : first = u.jn.next := by
      by_cases quiet : choice = 0 ∨ h.cu.cableLost = true
      · rw [(unjournaled quiet).1]
        exact if_pos quiet
      · rw [journaled quiet]
        exact if_neg quiet
    have cursors : u.jn.cursors = h.jn.cursors := records.2.1
    rw [number, ← cursors]
    exact u.restarted_latch p
  · have sides : (u.restarted.journal .restart).wt = u.wt.map (Slot.resided u.cu.chainage) := by
      simp [State.restarted]
    rw [sides, wt, chainage]
    exact congrArg (h.wt.map ·) (funext fun x => by cases x <;> rfl)
  · exact fun zero => by rw [keeps zero]
  · exact fun one => by rw [reseeds one, State.reseed_cu]
  · exact fun quiet => State.journal_jn_congr (unjournaled quiet).1 (unjournaled quiet).2 _
  · exact fun one sound => State.journal_jn_congr
      (journaled (by rw [one, sound]; decide)) (by simp) _
  · simp [records]
  · simp [records]
  · simp [records]
  · have only : OnlyLatches (u.restarted.journal .restart) h := by simp [State.restarted, latches]
    exact only.pi_eq
  · simp [State.restarted, base]
  · simp [State.restarted, li]
  · simp [State.restarted, sp]
  · simp [State.restarted, now]
  · simp [State.restarted, base]

end Sys2Proof.Machine
end

section
/-! Requests on the journal (9.4, 9.5, 9.7): positions, MARK and NOTE. -/

namespace Sys2Proof.Machine

theorem exec_journalSeek {p : Port} {b0 b1 b2 b3 : Byte} {s : State} (h : s.accepts p 0x42 [b0, b1, b2, b3]) :
    exec (.journalSeek p [b0, b1, b2, b3]) s =
      .next (State.answeredWith p 0x42 (actSeek p (word b0 b1 b2 b3) (s.heard p))) :=
  congrArg Host.Outcome.next (State.request_acts h (fun _ => by decide) rfl rfl)

theorem exec_journalRewind {p : Port} {s : State} (h : s.accepts p 0x43 []) :
    exec (.journalRewind p []) s = .next (State.answeredWith p 0x43 (actRewind p () (s.heard p))) :=
  congrArg Host.Outcome.next (State.request_acts h (fun _ => by decide) rfl rfl)

theorem exec_journalBind {p : Port} {s : State} (h : s.accepts p 0x44 []) :
    exec (.journalBind p []) s = .next (State.answeredWith p 0x44 (actBinding true p () (s.heard p))) :=
  congrArg Host.Outcome.next (State.request_acts h (fun _ => by decide) rfl rfl)

theorem exec_journalUnbind {p : Port} {s : State} (h : s.accepts p 0x45 []) :
    exec (.journalUnbind p []) s = .next (State.answeredWith p 0x45 (actBinding false p () (s.heard p))) :=
  congrArg Host.Outcome.next (State.request_acts h (fun _ => by decide) rfl rfl)

theorem exec_journalClear {s : State} (h : s.accepts .surface 0x46 []) :
    exec (.journalClear .surface []) s =
      .next (State.answeredWith .surface 0x46 (actClearJournal .surface () (s.heard .surface))) :=
  congrArg Host.Outcome.next (State.request_acts h (fun _ => by decide) rfl rfl)

theorem exec_journalMode {b : Byte} {s : State} (h : s.accepts .surface 0x47 [b]) :
    exec (.journalMode .surface [b]) s =
      .next (State.answeredWith .surface 0x47 (actJournalMode .surface b (s.heard .surface))) :=
  congrArg Host.Outcome.next (State.request_acts h (fun _ => by decide) rfl rfl)

theorem exec_mark {p : Port} {b0 b1 : Byte} {s : State} (right : p ≠ .drive) (h : s.accepts p 0x48 [b0, b1]) :
    exec (.mark p [b0, b1]) s = .next (State.answeredWith p 0x48 (actMark p (half b0 b1) (s.heard p))) :=
  congrArg Host.Outcome.next (State.request_acts h (fun _ => by decide) (decide_eq_true right) rfl)

theorem exec_note {text : List Byte} {s : State} (fits : text.length ≤ 32) (h : s.accepts .surface 0x49 text) :
    exec (.note .surface text) s =
      .next (State.answeredWith .surface 0x49 (actNote .surface text (s.heard .surface))) :=
  congrArg Host.Outcome.next (State.request_acts h (fun _ => by decide) rfl (if_pos fits))

/-! ### SEEK, REWIND, BIND, UNBIND, CLEAR and MODE -/

theorem JournalMode.ofCode_code (m : JournalMode) : JournalMode.ofCode m.code = some m := by
  cases m <;> rfl

theorem JournalMode.ofCode_none {n : Nat} (large : 1 < n) : JournalMode.ofCode n = none := by
  obtain ⟨n, rfl⟩ := Nat.exists_eq_add_of_le' (Nat.succ_le_of_lt large)
  rfl

theorem State.setCursor_cursorData (p : Port) (n : Nat) (s : State) : (s.setCursor p n).cursorData p = u32 n := by
  simp only [State.cursorData, State.setCursor, PerPort.get_set_same]

theorem State.setBinding_bindingData (p : Port) (bound : Bool) (s : State) :
    (s.setBinding p bound).bindingData p = u32 (s.jn.cursors.get p) ++ u8 bound.toNat := by
  simp only [State.bindingData, State.cursorData, State.setBinding, PerPort.get_set_same]

/-- Settles O48. -/
theorem journalPositionsAreTheAskingPorts : Obligations.JournalPositionsAreTheAskingPorts := by
  intro p s h base at_ bound
  have jn : (s.heard p).jn = s.jn := by simp
  have base_eq : (s.heard p).jn.base = base := by rw [jn]; rfl
  refine ⟨fun b0 b1 b2 b3 accepted => ⟨fun low high => ?_, fun outside => ?_⟩, fun accepted => ?_, fun accepted => ?_,
    fun accepted => ?_, fun surface accepted => ?_, fun b surface accepted => ⟨fun m code => ?_, fun large => ?_⟩⟩
  · rw [exec_journalSeek accepted, actSeek, if_pos ⟨by rw [base_eq]; exact low, by rw [jn]; exact high⟩]
    dsimp only
    rw [State.setCursor_cursorData]
    rfl
  · rw [exec_journalSeek accepted, actSeek, if_neg (by rw [base_eq, jn]; omega)]
    rfl
  · rw [exec_journalRewind accepted, actRewind]
    rw [State.setCursor_cursorData, base_eq]
    rfl
  · rw [exec_journalBind accepted, actBinding]
    rw [State.setBinding_bindingData, jn]
    rfl
  · rw [exec_journalUnbind accepted, actBinding]
    rw [State.setBinding_bindingData, jn]
    rfl
  · subst surface
    have cleared : (s.heard .surface).clearJournal.jn.next = s.jn.next := by rw [← jn]; rfl
    rw [exec_journalClear accepted, actClearJournal]
    have next : (s.heard .surface).jn.next = s.jn.next := by rw [jn]
    rw [cleared, State.clearJournal, next]
    rfl
  · subst surface
    have echo : u8 m.code = [b] := by simp [u8, code]
    rw [exec_journalMode accepted, actJournalMode, ← code, JournalMode.ofCode_code]
    dsimp only
    rw [echo, jn]
    rfl
  · subst surface
    rw [exec_journalMode accepted, actJournalMode, JournalMode.ofCode_none large]
    rfl

/-! ### MARK and NOTE (R159, R160) -/

/-- Settles O49. -/
theorem markAndNoteHandOneRecord : Obligations.MarkAndNoteHandOneRecord := by
  intro p s h header
  have made : (s.heard p).header = header := by
    have cu : (s.heard p).cu = s.cu := by simp
    rw [State.header, cu]
    rfl
  refine ⟨fun b0 b1 right accepted => ?_, fun text fits surface accepted => ?_⟩
  · rw [exec_mark right accepted, actMark, State.journalForRequest, made]
    rfl
  · subst surface
    rw [exec_note fits accepted, actNote, State.journalForRequest, made]
    rfl

end Sys2Proof.Machine
end

section
/-! Handing a record (9.3): how many records it evicts, which may not go, and what drops leave behind (R147 to
R151). -/

namespace Sys2Proof.Machine

/-! ### Making room -/

/-- A BOUND port has not read this record (R149). -/
def Journal.guards (j : Journal) (r : Record) : Prop :=
  ∃ p : Port, j.bound.get p = true ∧ j.cursors.get p ≤ r.seq

theorem Journal.protects_iff (j : Journal) (r : Record) : j.protects r = true ↔ j.guards r := by
  simp only [Journal.protects, Bool.or_eq_true, Bool.and_eq_true, decide_eq_true_eq]
  constructor
  · rintro ((h | h) | h)
    · exact ⟨.surface, h⟩
    · exact ⟨.drive, h⟩
    · exact ⟨.head, h⟩
  · rintro ⟨_ | _ | _, h⟩
    · exact .inl (.inl h)
    · exact .inl (.inr h)
    · exact .inr h

theorem Journal.evictable_hold {j : Journal} (hold : j.mode = .hold) (r : Record) :
    j.evictable r = true ↔ ¬ j.guards r := by
  simp [Journal.evictable, hold, ← Journal.protects_iff]

/-- Room is made when no record evicted for it is guarded, or the mode is WRAP. -/
theorem Journal.makeRoom_frees {j : Journal} {need : Nat} (fits : need ≤ storeWords)
    (free : j.mode = .wrap ∨ ∀ r ∈ j.store.take (evictions need j.store), ¬ j.guards r) :
    makeRoom j.evictable need j.store = some (j.store.drop (evictions need j.store)) := by
  have goes (r : Record) (evicted : r ∈ j.store.take (evictions need j.store)) : j.evictable r = true := by
    cases mode : j.mode with
    | wrap => simp [Journal.evictable, mode]
    | hold => exact (Journal.evictable_hold mode r).mpr (free.resolve_left (by simp [mode]) r evicted)
  rw [makeRoom_eq, if_pos ⟨fits, goes⟩]

/-- In HOLD a guarded record among those to evict keeps the room from being made. -/
theorem Journal.makeRoom_blocked {j : Journal} {need : Nat} (hold : j.mode = .hold)
    (guarded : ∃ r ∈ j.store.take (evictions need j.store), j.guards r) :
    makeRoom j.evictable need j.store = none := by
  obtain ⟨r, evicted, stays⟩ := guarded
  rw [makeRoom_eq, if_neg fun ⟨_, goes⟩ => (Journal.evictable_hold hold r).mp (goes r evicted) stays]

/-- In HOLD no guarded record goes. -/
theorem Journal.makeRoom_keeps {j : Journal} {need : Nat} {kept : List Record} {r : Record} (hold : j.mode = .hold)
    (made : makeRoom j.evictable need j.store = some kept) (stored : r ∈ j.store) (guarded : j.guards r) :
    r ∈ kept := by
  rw [makeRoom_eq] at made
  split at made
  · next room =>
    cases made
    rw [← List.take_append_drop (evictions need j.store) j.store, List.mem_append] at stored
    exact stored.resolve_left fun evicted => (Journal.evictable_hold hold r).mp (room.2 r evicted) guarded
  · cases made

/-! ### What handing does, case by case -/

/-- A record stored changes the records, their next number, and latches. -/
theorem State.storeRecord_eq (kept : List Record) (h : Header) (b : Body) (s : State) :
    s.storeRecord kept h b = { s with
      jn := { s.jn with store := kept ++ [⟨s.jn.next, h, b⟩], next := s.jn.next + 1 }
      pi := { s.pi with latches := (s.storeRecord kept h b).pi.latches } } :=
  State.eq_of_fields (pi := OnlyLatches.pi_eq (by simp))

/-- A drop counted while others are changes the count only. -/
theorem State.countDrop_again {s : State} (more : s.jn.dropCount ≠ 0) :
    s.countDrop = { s with jn := { s.jn with dropCount := min (s.jn.dropCount + 1) 4294967295 } } := by
  rw [State.countDrop, if_neg more]
  rfl

theorem State.handRecord_exhausted {s : State} (none_ : exhaustedNumber ≤ s.jn.next) (h : Header) (b : Body) :
    s.handRecord h b = (s.countDrop, 0) := by
  simp only [State.handRecord, if_pos none_]

section
variable {s : State} {h : Header} {b : Body} {kept : List Record}

/-- With no drop counted and room made, the record is stored under the next number. -/
theorem State.handRecord_alone (numbers : s.jn.next < exhaustedNumber) (whole : s.jn.dropCount = 0)
    (made : makeRoom s.jn.evictable b.words s.jn.store = some kept) :
    s.handRecord h b = (s.storeRecord kept h b, s.jn.next) := by
  simp only [State.handRecord, if_neg (Nat.not_le.mpr numbers), if_pos whole, made]

theorem State.handRecord_alone_none (numbers : s.jn.next < exhaustedNumber) (whole : s.jn.dropCount = 0)
    (full : makeRoom s.jn.evictable b.words s.jn.store = none) :
    s.handRecord h b = (s.countDrop, 0) := by
  simp only [State.handRecord, if_neg (Nat.not_le.mpr numbers), if_pos whole, full]

/-- With drops counted, a LOST record goes before the record (R150). -/
theorem State.handRecord_pair (numbers : s.jn.next + 1 < exhaustedNumber) (drops : s.jn.dropCount ≠ 0)
    (made : makeRoom s.jn.evictable (8 + b.words) s.jn.store = some kept) :
    s.handRecord h b =
      (let withLost := s.storeRecord kept s.header (s.jn.lostBody s.jn.dropCount)
       ((withLost.storeRecord withLost.jn.store h b).clearDrops, s.jn.next + 1)) := by
  simp only [State.handRecord, if_neg (show ¬ exhaustedNumber ≤ s.jn.next by omega), if_neg drops,
    if_neg (Nat.ne_of_lt numbers), made]

theorem State.handRecord_pair_none (numbers : s.jn.next + 1 < exhaustedNumber) (drops : s.jn.dropCount ≠ 0)
    (full : makeRoom s.jn.evictable (8 + b.words) s.jn.store = none) :
    s.handRecord h b = (s.countDrop, 0) := by
  simp only [State.handRecord, if_neg (show ¬ exhaustedNumber ≤ s.jn.next by omega), if_neg drops,
    if_neg (Nat.ne_of_lt numbers), full]

/-- The last number goes to the LOST record alone (R151). -/
theorem State.handRecord_last (numbers : s.jn.next + 1 = exhaustedNumber) (drops : s.jn.dropCount ≠ 0)
    (made : makeRoom s.jn.evictable 8 s.jn.store = some kept) :
    s.handRecord h b = ((s.countDrop.storeRecord kept s.header
      (s.countDrop.jn.lostBody s.countDrop.jn.dropCount)).clearDrops, 0) := by
  simp only [State.handRecord, if_neg (show ¬ exhaustedNumber ≤ s.jn.next by omega), if_neg drops,
    if_pos numbers, made]

theorem State.handRecord_last_none (numbers : s.jn.next + 1 = exhaustedNumber) (drops : s.jn.dropCount ≠ 0)
    (full : makeRoom s.jn.evictable 8 s.jn.store = none) :
    s.handRecord h b = (s.countDrop, 0) := by
  simp only [State.handRecord, if_neg (show ¬ exhaustedNumber ≤ s.jn.next by omega), if_neg drops,
    if_pos numbers, full]

end

/-- A port's latch joins JOURNAL when its cursor is the number stored. -/
theorem State.storeRecord_latch_if (kept : List Record) (h : Header) (b : Body) (p : Port) (s : State) :
    (s.storeRecord kept h b).pi.latches.get p =
      if s.jn.cursors.get p = s.jn.next then s.pi.latches.get p ||| Event.bit .journal
      else s.pi.latches.get p := by
  rw [State.storeRecord_latch]
  split
  · rfl
  · simp

/-- Settles O50. -/
theorem storingEvictsNoMoreThanItMust : Obligations.StoringEvictsNoMoreThanItMust := by
  refine ⟨fun header b s whole numbers short => ?_, fun header b s none_ => ?_⟩
  · refine ⟨evictions b.words s.jn.store, evictions_le _ _, evictions_fit _ short,
      evictions_fewest _ _, fun free => ?_, fun hold guarded => ?_⟩
    · have made := Journal.makeRoom_frees (j := s.jn) short free
      let kept := s.jn.store.drop (evictions b.words s.jn.store)
      refine ⟨(s.storeRecord kept header b).pi.latches, ?_, fun p => State.storeRecord_latch_if kept header b p s⟩
      rw [State.handRecord_alone numbers whole made, ← State.storeRecord_eq]
    · rw [State.handRecord_alone_none numbers whole (Journal.makeRoom_blocked hold guarded), State.countDrop,
        if_pos whole, whole]
      rfl
  · exact State.handRecord_exhausted none_ header b

/-! ### LOST records, and what HOLD keeps -/

/-- The LOST record and the record after it, in the journal. -/
theorem State.storedPair_jn (kept : List Record) (h header : Header) (lost b : Body) (s : State) :
    let withLost := s.storeRecord kept h lost
    (withLost.storeRecord withLost.jn.store header b).clearDrops.jn = { s.jn with
      store := kept ++ [⟨s.jn.next, h, lost⟩, ⟨s.jn.next + 1, header, b⟩]
      next := s.jn.next + 2, dropCount := 0, firstDrop := none } := by
  simp [State.clearDrops]

/-- The LOST record and the record after it, in the whole state. -/
theorem State.storedPair_eq {s : State} {clock : Word32} (first : s.jn.firstDrop = some clock)
    (kept : List Record) (header : Header) (b : Body) :
    let withLost := s.storeRecord kept s.header (s.jn.lostBody s.jn.dropCount)
    let t := (withLost.storeRecord withLost.jn.store header b).clearDrops
    t = { s with
      jn := { s.jn with
        store := kept ++ [⟨s.jn.next, s.header, .lost s.jn.dropCount clock⟩, ⟨s.jn.next + 1, header, b⟩]
        next := s.jn.next + 2, dropCount := 0, firstDrop := none }
      pi := { s.pi with latches := t.pi.latches } } :=
  State.eq_of_fields (jn := by simp [State.clearDrops, Journal.lostBody, first])
    (pi := OnlyLatches.pi_eq (by simp [State.clearDrops]))

/-- Two numbers used up: JOURNAL on the ports whose cursor is one of them. -/
theorem State.storedPair_latch (kept : List Record) (header lostHeader : Header) (b lost : Body) (p : Port)
    (s : State) :
    let withLost := s.storeRecord kept lostHeader lost
    (withLost.storeRecord withLost.jn.store header b).clearDrops.pi.latches.get p =
      if s.jn.cursors.get p = s.jn.next ∨ s.jn.cursors.get p = s.jn.next + 1 then
        s.pi.latches.get p ||| Event.bit .journal
      else s.pi.latches.get p := by
  simp only [State.clearDrops, State.storeRecord_latch_if, State.storeRecord_jn]
  by_cases first : s.jn.cursors.get p = s.jn.next <;>
    by_cases second : s.jn.cursors.get p = s.jn.next + 1 <;>
    simp [first, second]

/-- The LOST record that takes the last number. -/
theorem State.storedLast_eq {s : State} {clock : Word32} (drops : s.jn.dropCount ≠ 0)
    (first : s.jn.firstDrop = some clock) (kept : List Record) :
    let t := (s.countDrop.storeRecord kept s.header (s.countDrop.jn.lostBody s.countDrop.jn.dropCount)).clearDrops
    t = { s with
      jn := { s.jn with
        store := kept ++ [⟨s.jn.next, s.header, .lost (min (s.jn.dropCount + 1) 4294967295) clock⟩]
        next := s.jn.next + 1, dropCount := 0, firstDrop := none }
      pi := { s.pi with latches := t.pi.latches } } := by
  rw [State.countDrop_again drops]
  exact State.eq_of_fields (jn := by simp [State.clearDrops, Journal.lostBody, first])
    (pi := OnlyLatches.pi_eq (by simp [State.clearDrops]))

/-- In HOLD a guarded record stays, whatever is handed. -/
theorem State.handRecord_keeps {s : State} {r : Record} (hold : s.jn.mode = .hold) (stored : r ∈ s.jn.store)
    (guarded : s.jn.guards r) (h : Header) (b : Body) : r ∈ (s.handRecord h b).1.jn.store := by
  have dropped : r ∈ s.countDrop.jn.store := stored
  have kept_ {need : Nat} {kept : List Record} (made : makeRoom s.jn.evictable need s.jn.store = some kept) :
      r ∈ kept := Journal.makeRoom_keeps hold made stored guarded
  unfold State.handRecord
  dsimp only
  split
  · exact dropped
  · split
    · split
      · next made => simp [kept_ made]
      · exact dropped
    · split
      · split
        · next made => simp [State.clearDrops, kept_ made]
        · exact dropped
      · split
        · next made => simp [State.clearDrops, kept_ made]
        · exact dropped

/-- Settles O51. -/
theorem holdEvictsNoProtectedRecord : Obligations.HoldEvictsNoProtectedRecord := by
  intro header b s t number
  refine ⟨fun hold r stored p bound unread =>
      State.handRecord_keeps hold stored ⟨p, bound, unread⟩ header b,
    fun drops numbers => ?_, fun clock drops first numbers short => ?_, fun clock drops first numbers => ?_⟩
  · cases made : makeRoom s.jn.evictable (8 + b.words) s.jn.store with
    | some kept =>
      have handed := State.handRecord_pair (h := header) numbers drops made
      have number_eq : number = s.jn.next + 1 := congrArg Prod.snd handed
      have jn_eq := congrArg (fun x => x.1.jn) handed
      rw [State.storedPair_jn] at jn_eq
      refine ⟨fun _ => ⟨number_eq, congrArg Journal.next jn_eq, congrArg Journal.dropCount jn_eq,
        congrArg Journal.firstDrop jn_eq, fun clock first => ⟨kept, ?_⟩⟩, fun none_ => by omega⟩
      rw [congrArg Journal.store jn_eq, Journal.lostBody, first]
      rfl
    | none =>
      have handed := State.handRecord_pair_none (h := header) numbers drops made
      have number_eq : number = 0 := congrArg Prod.snd handed
      refine ⟨fun some_ => absurd number_eq some_, fun _ => ?_⟩
      rw [← State.countDrop_again drops]
      exact congrArg Prod.fst handed
  · refine ⟨evictions (8 + b.words) s.jn.store, evictions_le _ _, evictions_fit _ short,
      evictions_fewest _ _, fun free => ?_, fun hold guarded => ?_⟩
    · have made := Journal.makeRoom_frees (j := s.jn) short free
      rw [State.handRecord_pair numbers drops made]
      dsimp only
      refine ⟨_, congrArg (·, s.jn.next + 1) (State.storedPair_eq first _ header b),
        fun p => State.storedPair_latch _ header s.header b _ p s⟩
    · rw [State.handRecord_pair_none numbers drops (Journal.makeRoom_blocked hold guarded),
        State.countDrop_again drops]
  · refine ⟨evictions 8 s.jn.store, evictions_le _ _, evictions_fit _ (by decide),
      evictions_fewest _ _, fun free => ?_, fun hold guarded => ?_⟩
    · have made := Journal.makeRoom_frees (j := s.jn) (need := 8) (by decide) free
      rw [State.handRecord_last numbers drops made]
      refine ⟨_, congrArg (·, 0) (State.storedLast_eq drops first _), fun p => ?_⟩
      simp only [State.clearDrops, State.storeRecord_latch_if]
      rfl
    · rw [State.handRecord_last_none numbers drops (Journal.makeRoom_blocked hold guarded),
        State.countDrop_again drops]

end Sys2Proof.Machine
end

section
/-! Reading the journal (9.4): what a cursor stands at, which records a bulk answer holds, and the layout of a
record (12.4). -/

namespace Sys2Proof.Machine

theorem exec_journalNext {p : Port} {s : State} (h : s.accepts p 0x40 []) :
    exec (.journalNext p []) s = .next (State.answeredWith p 0x40 (actNext p () (s.heard p))) :=
  congrArg Host.Outcome.next (State.request_acts h (fun _ => by decide) rfl rfl)

theorem exec_journalBulk {p : Port} {s : State} (h : s.accepts p 0x41 []) :
    exec (.journalBulk p []) s = .next (State.answeredWith p 0x41 (actBulk p () (s.heard p))) :=
  congrArg Host.Outcome.next (State.request_acts h (fun _ => by decide) rfl rfl)

/-! ### What a read finds (R154) -/

section
variable {p : Port} {s : State}

theorem actNext_caughtUp (found : s.jn.readCase p = .caughtUp) : actNext p () s = (s, bare .none) := by
  rw [actNext, found]

theorem actBulk_caughtUp (found : s.jn.readCase p = .caughtUp) : actBulk p () s = (s, bare .none) := by
  rw [actBulk, found]

theorem actNext_overtaken {lost : Nat} (found : s.jn.readCase p = .overtaken lost) :
    actNext p () s = s.answerGap p lost := by rw [actNext, found]

theorem actBulk_overtaken {lost : Nat} (found : s.jn.readCase p = .overtaken lost) :
    actBulk p () s = s.answerGap p lost := by rw [actBulk, found]

theorem actNext_records {r : Record} {rs : List Record} (found : s.jn.readCase p = .records (r :: rs)) :
    actNext p () s = (s.setCursor p (s.jn.cursors.get p + 1), ⟨.ok, r.bytes⟩) := by rw [actNext, found]

theorem actBulk_records {r : Record} {rs : List Record} (found : s.jn.readCase p = .records (r :: rs)) :
    actBulk p () s =
      (let taken := bulkTake bulkRecords bulkBytes (r :: rs)
       (s.setCursor p (s.jn.cursors.get p + taken.length),
        ⟨.ok, u8 taken.length ++ (taken.map Record.bytes).flatten⟩)) := by rw [actBulk, found]

end

theorem Journal.readCase_next {p : Port} {j : Journal} (at_ : j.cursors.get p = j.next) :
    j.readCase p = .caughtUp := if_pos at_

theorem Journal.readCase_below {p : Port} {j : Journal} (low : j.cursors.get p < j.base) :
    j.readCase p = .overtaken (j.base - j.cursors.get p) := by
  have before : j.cursors.get p ≠ j.next := Nat.ne_of_lt (low.trans_le (Nat.sub_le _ _))
  rw [Journal.readCase, if_neg before, if_pos low]

theorem Journal.readCase_stored {p : Port} {j : Journal} (low : j.base ≤ j.cursors.get p)
    (high : j.cursors.get p < j.next) : j.readCase p = .records (j.store.drop (j.cursors.get p - j.base)) := by
  rw [Journal.readCase, if_neg (Nat.ne_of_lt high), if_neg (Nat.not_lt.mpr low)]
  rfl

/-! ### The records of a bulk answer (R155) -/

theorem bulkTake_zero (room : Nat) (rs : List Record) : bulkTake 0 room rs = [] := by cases rs <;> rfl

theorem bulkTake_nil (count room : Nat) : bulkTake count room [] = [] := by cases count <;> rfl

theorem bulkTake_fits {room : Nat} {r : Record} (fits : 4 * r.body.words ≤ room) (count : Nat)
    (rs : List Record) :
    bulkTake (count + 1) room (r :: rs) = r :: bulkTake count (room - 4 * r.body.words) rs := if_pos fits

theorem bulkTake_large {room : Nat} {r : Record} (large : ¬ 4 * r.body.words ≤ room) (count : Nat)
    (rs : List Record) : bulkTake (count + 1) room (r :: rs) = [] := if_neg large

/-- What is taken one by one: the records from the first on, within the count and the room. -/
theorem bulkTake_within (count room : Nat) (rs : List Record) :
    bulkTake count room rs <+: rs ∧ (bulkTake count room rs).length ≤ count ∧
    4 * usedWords (bulkTake count room rs) ≤ room := by
  induction count generalizing room rs with
  | zero => simp [bulkTake_zero]
  | succ count ih =>
    cases rs with
    | nil => simp [bulkTake_nil]
    | cons r rs =>
      by_cases fits : 4 * r.body.words ≤ room
      · obtain ⟨begins, short, small⟩ := ih (room - 4 * r.body.words) rs
        rw [bulkTake_fits fits, usedWords_cons]
        exact ⟨List.cons_prefix_cons.mpr ⟨rfl, begins⟩, Nat.succ_le_succ short, by omega⟩
      · simp [bulkTake_large fits]

/-- The record after those taken exceeds the count or the room. -/
theorem bulkTake_most {count room : Nat} {rs : List Record} {r : Record}
    (more : bulkTake count room rs ++ [r] <+: rs) :
    (bulkTake count room rs).length = count ∨ room < 4 * usedWords (bulkTake count room rs ++ [r]) := by
  induction count generalizing room rs with
  | zero => simp [bulkTake_zero]
  | succ count ih =>
    cases rs with
    | nil => simp [bulkTake_nil] at more
    | cons q rs =>
      by_cases fits : 4 * q.body.words ≤ room
      · rw [bulkTake_fits fits, List.cons_append, List.cons_prefix_cons] at more
        rw [bulkTake_fits fits, List.cons_append, usedWords_cons, List.length_cons]
        exact (ih more.2).imp (congrArg (· + 1)) fun exceeds => by omega
      · rw [bulkTake_large fits, List.nil_append, List.cons_prefix_cons] at more
        rw [bulkTake_large fits, List.nil_append, usedWords_singleton, more.1]
        exact .inr (Nat.lt_of_not_le fits)

/-- Records that each fit an answer alone give at least one. -/
theorem bulkTake_some {r : Record} {rs : List Record} {count room : Nat} (fits : 4 * r.body.words ≤ room) :
    bulkTake (count + 1) room (r :: rs) ≠ [] := by
  rw [bulkTake_fits fits]
  exact List.cons_ne_nil _ _

/-! ### The layout of a record (12.4) -/

/-- A text is completed by the zeros that its last word lacks. -/
theorem padToWord_eq (text : List Byte) :
    padToWord text = text ++ List.replicate ((4 - text.length % 4) % 4) 0 := by
  have lacking : 4 * textWords text.length - text.length = (4 - text.length % 4) % 4 := by
    rw [textWords]
    omega
  rw [padToWord, lacking]

theorem padToWord_length (text : List Byte) : (padToWord text).length = 4 * textWords text.length := by
  have short : text.length ≤ 4 * textWords text.length := by
    rw [textWords]
    omega
  simp [padToWord, short]

theorem codeWord_eq (c : Option Half) : codeWord c = (c.map fun x => le16 x ++ [0, 0]).getD [] := by
  cases c <;> rfl

theorem codeWord_length (c : Option Half) : (codeWord c).length = 4 * partWords c 1 := by
  cases c <;> rfl

theorem attitudeBytes_length (a : Option Attitude) : (attitudeBytes a).length = 4 * partWords a 1 := by
  cases a <;> rfl

theorem poseWords_length (p : Option Pose) : (poseWords p).length = 4 * partWords p 2 := by
  cases p <;> rfl

/-- The presence mask of a body with one optional part. -/
theorem packBits_one (b : Bool) : packBits [b] = b.toNat := rfl

theorem packBits_two (b c : Bool) : packBits [b, c] = b.toNat + 2 * c.toNat := rfl

theorem packBits_three (b c d : Bool) : packBits [b, c, d] = b.toNat + 2 * c.toNat + 4 * d.toNat := by
  simp only [packBits]
  omega

theorem StateCauses.bits_eq (c : StateCauses) :
    c.bits = c.agreement.toNat + 2 * c.wheelFault.toNat + 4 * c.cableLost.toNat + 8 * c.reelJump.toNat := by
  simp only [StateCauses.bits, packBits]
  omega

theorem Header.flags_eq (h : Header) :
    h.flags = h.source.code + 4 * h.agreement.code + 16 * h.wheelFault.toNat + 32 * h.cableLost.toNat +
      64 * h.sat.toNat + 128 * h.held.toNat + 256 * h.capture.toNat := by
  simp only [Header.flags, positionFlags, packBits]
  omega

theorem decide_ne_nil (bs : List Byte) : decide (bs ≠ []) = !bs.isEmpty := by
  cases bs <;> rfl

theorem frameBodyBytes_length (source : Nat) (c : Option Half) (f : FrameBody) :
    (frameBodyBytes source c f).length =
      4 * (5 + partWords c 1 + partWords f.attitude 1 + partWords f.pose 2) := by
  simp only [frameBodyBytes, List.length_append, codeWord_length, attitudeBytes_length, poseWords_length, u8, u16,
    u32, le16, le32, List.length_cons, List.length_nil]
  omega

/-- A body fills the words after the header's five. -/
theorem Body.bytes_length (b : Body) : 20 + b.bytes.length = 4 * b.words := by
  cases b with
  | runOpen direction label =>
    simp [Body.bytes, Body.words, padToWord_length, u8]
    omega
  | note text =>
    simp [Body.bytes, Body.words, padToWord_length, u8]
    omega
  | mark cause haltBusy stillDropped n code =>
    simp [Body.bytes, Body.words, codeWord_length, u8, u32, le32]
    omega
  | still source code f =>
    simp [Body.bytes, Body.words, frameBodyBytes_length]
    omega
  | frame f =>
    simp [Body.bytes, Body.words, frameBodyBytes_length, partWords]
    omega
  | halt phase kind origin requester => cases requester <;> rfl
  | sag duration => cases duration <;> rfl
  | runClose => rfl
  | reref => rfl
  | state => rfl
  | lost => rfl
  | restart => rfl

theorem Record.bytes_length (r : Record) : r.bytes.length = 4 * r.body.words := by
  rw [← Body.bytes_length]
  simp [Record.bytes, u8, u16, u32, s32, le16, le32]
  omega

/-- Settles O47. -/
theorem journalReadsFollowTheCursor : Obligations.JournalReadsFollowTheCursor := by
  refine ⟨?_, ?_⟩
  · intro p s h cursor base moved
    have jn : (s.heard p).jn = s.jn := by simp
    refine ⟨fun at_ => ?_, fun low => ?_, fun low high stored => ⟨fun accepted r found => ?_,
      fun accepted small => ?_⟩⟩
    · have found : (s.heard p).jn.readCase p = .caughtUp := by
        rw [jn]
        exact Journal.readCase_next at_
      exact ⟨fun accepted => by rw [exec_journalNext accepted, actNext_caughtUp found]; rfl,
        fun accepted => by rw [exec_journalBulk accepted, actBulk_caughtUp found]; rfl⟩
    · have found : (s.heard p).jn.readCase p = .overtaken (base - cursor) := by
        rw [jn]
        exact Journal.readCase_below low
      have gap : (s.heard p).answerGap p (base - cursor) = (moved base, ⟨.gap, u32 (base - cursor)⟩) := by
        have base_eq : (s.heard p).jn.base = base := by rw [jn]; rfl
        rw [State.answerGap, base_eq]
        rfl
      exact ⟨fun accepted => by rw [exec_journalNext accepted, actNext_overtaken found, gap]; rfl,
        fun accepted => by rw [exec_journalBulk accepted, actBulk_overtaken found, gap]; rfl⟩
    · have here : s.jn.store.drop (cursor - base) = r :: s.jn.store.drop (cursor - base + 1) := by
        obtain ⟨short, rfl⟩ := List.getElem?_eq_some_iff.mp found
        exact List.drop_eq_getElem_cons short
      have found : (s.heard p).jn.readCase p = .records (r :: s.jn.store.drop (cursor - base + 1)) := by
        rw [jn, ← here]
        exact Journal.readCase_stored low high
      rw [exec_journalNext accepted, actNext_records found, jn]
      rfl
    · have short : cursor - base < s.jn.store.length := by omega
      have here := List.drop_eq_getElem_cons short
      have found : (s.heard p).jn.readCase p =
          .records (s.jn.store[cursor - base] :: s.jn.store.drop (cursor - base + 1)) := by
        rw [jn, ← here]
        exact Journal.readCase_stored low high
      rw [here]
      obtain ⟨begins, count, room⟩ := bulkTake_within 8 240
        (s.jn.store[cursor - base] :: s.jn.store.drop (cursor - base + 1))
      refine ⟨_, bulkTake_some (small _ (List.getElem_mem short)), begins, count, room,
        fun r more => bulkTake_most more, ?_⟩
      rw [exec_journalBulk accepted, actBulk_records found, jn]
      rfl
  · intro r x cause zeros text code frame kindAndBody
    have cause_eq (c : Cause) : cause c = c.code := by
      rcases c with (_ | _ | _) | _ | _ | _ <;> rfl
    have frame_eq (source : Nat) (c : Option Half) (f : FrameBody) :
        frame source c f = frameBodyBytes source c f := by
      rw [frameBodyBytes, packBits_three, FrameFlags.bits_eq, codeWord_eq]
      obtain ⟨_, _, _, _, _, attitude, pose⟩ := f
      cases attitude <;> cases pose <;> rfl
    have body_eq : kindAndBody = (r.body.kindCode, r.body.bytes) := by
      obtain ⟨seq, header, body⟩ := r
      cases body with
      | runOpen direction label =>
        dsimp only [kindAndBody, Body.kindCode, Body.bytes]
        rw [padToWord_eq, packBits_one, decide_ne_nil]
        cases direction <;> rfl
      | note bs =>
        dsimp only [kindAndBody, Body.kindCode, Body.bytes]
        rw [padToWord_eq, packBits_one, decide_ne_nil]
      | mark from_ haltBusy stillDropped n c =>
        dsimp only [kindAndBody, Body.kindCode, Body.bytes]
        rw [cause_eq, codeWord_eq, packBits_two, packBits_one]
      | still source code f =>
        dsimp only [kindAndBody, Body.kindCode, Body.bytes]
        rw [frame_eq, cause_eq]
      | frame f =>
        dsimp only [kindAndBody, Body.kindCode, Body.bytes]
        rw [frame_eq]
      | halt phase kind origin requester =>
        dsimp only [kindAndBody, Body.kindCode, Body.bytes]
        rw [packBits_one]
        have kind_eq : kind.code = (decide (kind = .haltStill)).toNat := by cases kind <;> rfl
        rw [kind_eq]
        cases requester with
        | none =>
          rcases origin with _ | ⟨i, _ | _ | _⟩ <;> cases phase <;> rfl
        | some q =>
          dsimp only
          rw [cause_eq]
          rcases origin with _ | ⟨i, _ | _ | _⟩ <;> cases phase <;> rfl
      | sag duration => cases duration <;> rfl
      | runClose implicit wheelTotal cableTotal => rfl
      | reref requester old => cases requester <;> rfl
      | state causes before after wheelFault cableLost =>
        dsimp only [kindAndBody, Body.kindCode, Body.bytes]
        rw [packBits_two, StateCauses.bits_eq]
        rfl
      | lost count first => rfl
      | restart => rfl
    refine ⟨?_, Record.bytes_length r⟩
    rw [body_eq, Record.bytes, Header.flags_eq]

end Sys2Proof.Machine
end

section
/-! The frame boundary (R77 to R86, R104, R105): what each of its steps leaves. -/

namespace Sys2Proof.Machine

/-! ### Serving depends on settings, claims and latches -/

theorem State.serveQueue_congr {s t : State} (cfg : t.cfg = s.cfg) (ca : t.ca = s.ca) (pi : t.pi = s.pi)
    (queue : List Port) :
    (State.serveQueue queue t).ca = (State.serveQueue queue s).ca ∧
    (State.serveQueue queue t).pi = (State.serveQueue queue s).pi := by
  induction queue generalizing s t with
  | nil => simp [State.serveQueue, ca, pi]
  | cons p rest ih =>
    have free : t.freeCurrent = s.freeCurrent := by simp only [State.freeCurrent, cfg, ca]
    unfold State.serveQueue
    rw [free, ca]
    split
    · exact ih (by simpa using cfg) (by simp [State.grantClaim, State.setClaim, ca])
        (by simp [State.grantClaim, State.setClaim, State.setEvent, ca, pi])
    · exact ⟨rfl, pi⟩

theorem State.serve_congr {s t : State} (cfg : t.cfg = s.cfg) (ca : t.ca = s.ca) (pi : t.pi = s.pi) :
    t.serve.ca = s.serve.ca ∧ t.serve.pi = s.serve.pi := by
  unfold State.serve
  rw [ca]
  split
  · exact ⟨ca, pi⟩
  · exact State.serveQueue_congr cfg ca pi _

theorem State.serveQueue_commit (queue : List Port) (s : State) :
    (State.serveQueue queue s).ca.commit = s.ca.commit := by
  induction queue generalizing s with
  | nil => rfl
  | cons p rest ih =>
    unfold State.serveQueue
    split
    · exact ih _
    · rfl

theorem State.serve_commit (s : State) : s.serve.ca.commit = s.ca.commit := by
  unfold State.serve
  split
  · rfl
  · exact State.serveQueue_commit _ s

/-! ### The still taken (R123, R128) -/

/-- What the taking of this entry makes of a sequence. -/
def HaltSeq.atBoundary (entry : Option StillEntry) (q : HaltSeq) : HaltSeq :=
  if (entry.any fun e => e.source = .halt) ∧ q.stillMark = .queued then { q with stillMark := .taken } else q

theorem HaltSeq.atBoundary_other {entry : Option StillEntry} (other : (entry.any fun e => e.source = .halt) = false) :
    HaltSeq.atBoundary entry = id := by
  funext q
  simp [HaltSeq.atBoundary, other]

theorem State.haltStillTaken_eq {entry : Option StillEntry}
    (halt : (entry.any fun e => e.source = .halt) = true) (s : State) :
    s.haltStillTaken = { s with hc := { s.hc with seq := s.hc.seq.map (HaltSeq.atBoundary entry) } } := by
  unfold State.haltStillTaken
  split
  · next q going =>
    have marked : s.hc.seq.map (HaltSeq.atBoundary entry) =
        some (if q.stillMark = .queued then { q with stillMark := .taken } else q) := by
      simp [going, HaltSeq.atBoundary, halt]
    rw [marked]
    split
    · rw [State.setSeq_going going]
    · rw [← going]
  · next idle =>
    have marked : s.hc.seq.map (HaltSeq.atBoundary entry) = s.hc.seq := by rw [idle]; rfl
    rw [marked]

theorem State.takeStill_eq (s : State) :
    s.takeStill = { s with
      sq := s.sq.tail, hc := { s.hc with seq := s.hc.seq.map (HaltSeq.atBoundary s.sq.head?) } } := by
  unfold State.takeStill
  split
  · next empty =>
    have marked : s.hc.seq.map (HaltSeq.atBoundary s.sq.head?) = s.hc.seq := by
      rw [HaltSeq.atBoundary_other (by simp [empty]), Option.map_id, id]
    rw [marked, empty, List.tail_nil, ← empty]
  · next e rest full =>
    dsimp only
    rw [full, List.tail_cons, List.head?_cons]
    split
    · next halt => rw [State.haltStillTaken_eq (entry := some e) (by simpa using halt)]
    · next other => rw [HaltSeq.atBoundary_other (by simpa using other), Option.map_id, id]

/-! ### The frame begun (steps 1 to 6) -/

theorem State.frameReady_eq (s : State) :
    s.frameReady = { s with
      fs := { s.fs with
        frameStart := s.fs.frameDue, frameDue := s.fs.frameDue + 2 * s.cfg.framePeriod
        period := s.cfg.framePeriod, windowOpen := false }
      ld := { s.ld with
        mode := s.ld.writtenMode, weights := s.ld.pendingWeights, channelMax := s.cfg.channelMax }
      sq := s.sq.tail, hc := { s.hc with seq := s.hc.seq.map (HaltSeq.atBoundary s.sq.head?) } } := by
  rw [State.frameReady, State.takeStill_eq]
  rfl

/-- The record of the starting frame as it joins the ring. -/
def State.begunRecord (s : State) : FrameRecord :=
  newRecord (s.fs.frameNumber + 1) s.sq.head? s.ld.dwell s.frameAllocated

theorem State.frameBegun_eq (s : State) :
    s.frameBegun = { s with
      fs := { s.fs with
        frameStart := s.fs.frameDue, frameDue := s.fs.frameDue + 2 * s.cfg.framePeriod
        period := s.cfg.framePeriod, windowOpen := false
        frameNumber := s.fs.frameNumber + 1, ring := joinRing s.begunRecord s.fs.ring
        reportMark := (s.frameReport.map FrameRecord.number).or s.fs.reportMark
        carried := s.frameAllocated.pd }
      ld := { s.ld with
        mode := s.ld.writtenMode, weights := s.ld.pendingWeights, channelMax := s.cfg.channelMax
        dwell := s.ld.dwell && s.sq.isEmpty
        standstill := if s.sq = [] then s.ld.standstill
          else if s.cu.velocity = 0 ∧ s.hc.seq = none then some s.now else none }
      sq := s.sq.tail, hc := { s.hc with seq := s.hc.seq.map (HaltSeq.atBoundary s.sq.head?) } } := by
  unfold State.frameBegun
  rw [State.frameReady_eq]
  cases report : s.frameReport <;> cases sq : s.sq with
  | nil => simp [State.begunRecord, sq]
  | cons e rest => simp [State.begunRecord, sq, State.dwellAtStill, State.startStandstill]

/-! ### The lamps driven (step 7) -/

section
variable {l : LampDriver} {previous : LampMode} {held ended : Bool} {now : Nat} {levels : Four Nat}

theorem LampDriver.takeLevels_off (off : l.mode = .off) :
    l.takeLevels now previous held ended levels = { l.cut with pendingLevels := .all 0 } := by
  rw [LampDriver.takeLevels, off]

theorem LampDriver.takeLevels_strobe (strobe : l.mode = .strobe) :
    l.takeLevels now previous held ended levels = { l.cut with pendingLevels := levels } := by
  rw [LampDriver.takeLevels, strobe]

/-- The levels and pairs of a frame, adopted or not. -/
def LampDriver.pairing (levels : Four Nat) (l : LampDriver) : LampDriver :=
  { l with pendingLevels := levels, pendingPairs := levels.map (pwmPair l.channelMax) }

theorem LampDriver.takeLevels_steady (steady : l.mode = .steady) :
    l.takeLevels now previous held ended levels =
      if held then (l.pairing levels).cut
      else if previous ≠ .steady ∨ ended then (l.pairing levels).startPeriod now
      else l.pairing levels := by
  unfold LampDriver.takeLevels
  split
  · next off => cases steady.symm.trans off
  · next strobe => cases steady.symm.trans strobe
  · rfl

/-- STEADY under a hold: the pairs of the frame wait, and the lamps are dark. -/
theorem LampDriver.takeLevels_held (steady : l.mode = .steady) (stays : held = true) :
    l.takeLevels now previous held ended levels = (l.pairing levels).cut := by
  rw [LampDriver.takeLevels_steady steady, if_pos stays]

/-- STEADY begun, or a hold ended: a PWM period begins with the frame. -/
theorem LampDriver.takeLevels_begins (steady : l.mode = .steady) (free : held = false)
    (begins : previous ≠ .steady ∨ ended = true) :
    l.takeLevels now previous held ended levels = (l.pairing levels).startPeriod now := by
  rw [LampDriver.takeLevels_steady steady, free, if_neg Bool.false_ne_true, if_pos begins]

/-- STEADY goes on: the period that runs ends before the frame's pairs are adopted (R113). -/
theorem LampDriver.takeLevels_goes (steady : l.mode = .steady) (free : held = false)
    (goes : previous = .steady) (continues : ended = false) :
    l.takeLevels now previous held ended levels = l.pairing levels := by
  rw [LampDriver.takeLevels_steady steady, free, goes, continues]
  simp

end

theorem State.driveFrame_ld (previous : LampMode) (number : Word32) (a : Allocated) (s : State) :
    (s.driveFrame previous number a).ld =
      ({ s.ld with hold := s.ld.hold && s.ca.sag.isSome }).takeLevels s.fs.frameStart previous
        (s.ld.hold && s.ca.sag.isSome) (s.ld.hold && s.ca.sag.isNone) a.levels := rfl

theorem State.driveFrame_sp (previous : LampMode) (number : Word32) (a : Allocated) (s : State) :
    (s.driveFrame previous number a).sp = (s.sendGain ⟨a.g, frameTag number⟩).sp := rfl


end Sys2Proof.Machine
end

section
/-! The boundary whole (R79): the phase in which the frame starts, and the report it is allocated from (R86). -/

namespace Sys2Proof.Machine

/-! ### The starting phase (R78, R80, R111) -/

/-- Whether the strobe window of a frame opens at its boundary. -/
def LampMode.opensAtBoundary (mode : LampMode) (period t : Nat) : Bool :=
  match mode with
  | .off => false
  | .strobe => decide (period ≤ t + 2020)
  | .steady => decide (period ≤ t + 2000)

/-- A frame that stands in this phase, with its window open or not; a hold sheds what opens, and a STROBE
frame that opens free of a hold is lit. -/
def State.inPhase (phase : FramePhase) (opens : Bool) (older : List FrameRecord) (f : FrameRecord) (s : State) :
    State :=
  { s with
    fs := { s.fs with
      phase := phase, windowOpen := opens, ring := older ++ [if opens && s.ld.hold then f.withShed else f] }
    ld := if (opens && !s.ld.hold) = true ∧ s.ld.mode = .strobe then s.ld.light else s.ld }

/-- The frame in PRE, before its strobe. -/
def State.inPre (s : State) : State := { s with fs := { s.fs with phase := .pre } }

theorem State.inPhase_closed (phase : FramePhase) (older : List FrameRecord) (f : FrameRecord) (s : State) :
    s.inPhase phase false older f =
      { s with fs := { s.fs with phase := phase, windowOpen := false, ring := older ++ [f] } } := by
  simp [State.inPhase]

theorem State.inPhase_mode (phase : FramePhase) (opens : Bool) (older : List FrameRecord) (f : FrameRecord)
    (s : State) : (s.inPhase phase opens older f).ld.mode = s.ld.mode := by
  simp only [State.inPhase]
  split <;> rfl

/-- Strobe on keeps the period. -/
theorem State.startPhase_steps (t : Nat) (s : State) :
    s.startPhase t =
      (let u := if s.fs.period ≤ t + 2020 then s.inPre.strobe else s.inPre
       if s.fs.period ≤ t + 2000 then u.expose else u) := by
  have period : (if s.fs.period ≤ t + 2020 then s.inPre.strobe else s.inPre).fs.period = s.fs.period := by
    split <;> simp [State.inPre]
  show (if (if s.fs.period ≤ t + 2020 then s.inPre.strobe else s.inPre).fs.period ≤ t + 2000 then _ else _) = _
  rw [period]
  rfl

section
variable {s : State} {older : List FrameRecord} {f : FrameRecord}

/-- Strobe on at the boundary in STROBE. -/
theorem State.strobe_atBoundary (strobe : s.ld.mode = .strobe) (ring : s.fs.ring = older ++ [f]) :
    s.inPre.strobe = s.inPhase .pre true older f := by
  cases held : s.ld.hold with
  | false =>
    rw [State.strobe_lights (s := s.inPre) strobe held]
    simp [State.inPhase, State.inPre, held, strobe, ring, LampDriver.light]
  | true =>
    have phase : s.inPre.fs.phase ≠ .none := fun none => by cases none
    rw [State.strobe_sheds (s := s.inPre) strobe held phase ring]
    simp [State.inPhase, State.inPre, held]

/-- Exposure start outside STEADY: the phase alone. -/
theorem State.expose_other (other : s.ld.mode ≠ .steady) :
    s.expose = { s with fs := { s.fs with phase := .expose } } := if_neg other

/-- Exposure start at the boundary in STEADY. -/
theorem State.expose_atBoundary (steady : s.ld.mode = .steady) (ring : s.fs.ring = older ++ [f]) :
    s.inPre.expose = s.inPhase .expose true older f := by
  have mode : s.inPre.ld.mode = .steady := steady
  rw [State.expose_eq (s := s.inPre) ring]
  cases held : s.ld.hold <;> simp [State.inPhase, State.inPre, held, steady, ring]

/-- The phase in which a frame starts: EXPOSE when its exposure starts at the boundary itself, else PRE. -/
theorem State.startPhase_eq (t : Nat) (closed : s.fs.windowOpen = false) (ring : s.fs.ring = older ++ [f]) :
    s.startPhase t = s.inPhase (if s.fs.period ≤ t + 2000 then .expose else .pre)
      (s.ld.mode.opensAtBoundary s.fs.period t) older f := by
  have pre : s.inPre = s.inPhase .pre false older f := by
    rw [State.inPhase_closed, ← closed, ← ring]
    rfl
  rw [State.startPhase_steps]
  dsimp only
  cases mode : s.ld.mode with
  | off =>
    have noStrobe : s.inPre.strobe = s.inPre := if_neg (by simp [State.inPre, mode])
    rw [noStrobe, ite_self, State.expose_other (s := s.inPre) (by simp [State.inPre, mode]), pre]
    simp only [State.inPhase_closed, LampMode.opensAtBoundary]
    split <;> rfl
  | strobe =>
    simp only [LampMode.opensAtBoundary]
    by_cases strobes : s.fs.period ≤ t + 2020
    · rw [if_pos strobes, State.strobe_atBoundary mode ring, decide_eq_true strobes,
        State.expose_other (by rw [State.inPhase_mode, mode]; decide)]
      split <;> rfl
    · have later : ¬ s.fs.period ≤ t + 2000 := fun early => strobes (by omega)
      rw [if_neg strobes, if_neg later, if_neg later, decide_eq_false strobes, pre]
  | steady =>
    have noStrobe : s.inPre.strobe = s.inPre := if_neg (by simp [State.inPre, mode])
    rw [noStrobe, ite_self, State.expose_atBoundary mode ring]
    simp only [LampMode.opensAtBoundary]
    split
    · next now => rw [decide_eq_true now]
    · next later => rw [decide_eq_false later, pre]

end

/-! ### The boundary's parts -/

/-- The boundary with its gain word out and its levels with the lamp driver. -/
def State.frameDriven (s : State) : State :=
  s.frameBegun.driveFrame s.previousMode (s.fs.frameNumber + 1) s.frameAllocated

/-- Whether the window of the starting frame opens at the boundary. -/
def State.opensNext (s : State) : Bool := s.ld.writtenMode.opensAtBoundary s.cfg.framePeriod s.frameAllocated.t

/-- Whether a sag hold stays in force for the starting frame. -/
def State.staysHeld (s : State) : Bool := s.ld.hold && s.ca.sag.isSome

/-- The record of the starting frame. -/
def State.startedRecord (s : State) : FrameRecord :=
  { s.begunRecord with flags := { s.begunRecord.flags with shed := s.opensNext && s.staysHeld } }

/-- The record joins without SHED, and is flagged where a hold keeps its window dark. -/
theorem State.startedRecord_eq (s : State) :
    (if s.opensNext && s.staysHeld then s.begunRecord.withShed else s.begunRecord) = s.startedRecord := by
  unfold State.startedRecord
  cases s.opensNext && s.staysHeld <;> rfl

/-- The records that stay beside the starting frame's. -/
def State.olderRecords (s : State) : List FrameRecord :=
  if 4 ≤ s.fs.ring.length then s.fs.ring.tail else s.fs.ring

/-- The levels of a frame leave modes, weights, presets and holds. -/
theorem LampDriver.takeLevels_keeps (now : Nat) (previous : LampMode) (held ended : Bool) (levels : Four Nat)
    (l : LampDriver) :
    let t := l.takeLevels now previous held ended levels
    t.writtenMode = l.writtenMode ∧ t.mode = l.mode ∧ t.pendingWeights = l.pendingWeights ∧ t.weights = l.weights ∧
    t.presets = l.presets ∧ t.channelMax = l.channelMax ∧ t.standstill = l.standstill ∧ t.dwell = l.dwell ∧
    t.hold = l.hold := by
  unfold LampDriver.takeLevels
  dsimp only
  (repeat' split) <;> exact ⟨rfl, rfl, rfl, rfl, rfl, rfl, rfl, rfl, rfl⟩

/-- The lamp driver before it takes the levels: the mode, weights and channel maximum latched, the dwell state
and the sag hold revised (R104, R108, R110, R114, R116). -/
def State.lampsReady (s : State) : LampDriver :=
  { s.ld with
    mode := s.ld.writtenMode, weights := s.ld.pendingWeights, channelMax := s.cfg.channelMax
    dwell := s.ld.dwell && s.sq.isEmpty
    standstill := if s.sq = [] then s.ld.standstill
      else if s.cu.velocity = 0 ∧ s.hc.seq = none then some s.now else none
    hold := s.staysHeld }

theorem State.frameDriven_ld (s : State) :
    s.frameDriven.ld = s.lampsReady.takeLevels s.fs.frameDue s.previousMode s.staysHeld
      (s.ld.hold && s.ca.sag.isNone) s.frameAllocated.levels := by
  rw [State.frameDriven, State.driveFrame_ld, State.frameBegun_eq]
  rfl

theorem State.frameDriven_keeps (s : State) :
    let l := s.frameDriven.ld
    l.writtenMode = s.ld.writtenMode ∧ l.mode = s.ld.writtenMode ∧ l.pendingWeights = s.ld.pendingWeights ∧
    l.weights = s.ld.pendingWeights ∧ l.presets = s.ld.presets ∧ l.channelMax = s.cfg.channelMax ∧
    l.standstill = s.lampsReady.standstill ∧ l.dwell = s.lampsReady.dwell ∧ l.hold = s.staysHeld := by
  rw [State.frameDriven_ld]
  exact LampDriver.takeLevels_keeps ..

theorem State.boundary_eq (s : State) :
    s.boundary = (s.frameDriven.handInCommit s.frameAllocated.commit).inPhase
      (if s.cfg.framePeriod ≤ s.frameAllocated.t + 2000 then .expose else .pre) s.opensNext s.olderRecords
      s.begunRecord := by
  have fs : (s.frameDriven.handInCommit s.frameAllocated.commit).fs = s.frameBegun.fs := by
    simp [State.frameDriven]
  have mode : (s.frameDriven.handInCommit s.frameAllocated.commit).ld.mode = s.ld.writtenMode := by
    obtain ⟨-, mode, -⟩ := s.frameDriven_keeps
    simpa using mode
  have closed : s.frameBegun.fs.windowOpen = false := by rw [State.frameBegun_eq]
  have ring : s.frameBegun.fs.ring = s.olderRecords ++ [s.begunRecord] := by
    rw [State.frameBegun_eq]
    rfl
  have period : s.frameBegun.fs.period = s.cfg.framePeriod := by rw [State.frameBegun_eq]
  rw [← fs] at closed ring
  have started := State.startPhase_eq s.frameAllocated.t closed ring
  rw [mode, fs, period] at started
  exact started

end Sys2Proof.Machine
end

section
/-! The usable report (R86). -/

namespace Sys2Proof.Machine

/-- The records later than the mark: all of them when the mark is on none, else those behind the first that
it is on. -/
theorem afterMark_cases (mark : Option Word32) (ring : List FrameRecord) :
    (afterMark mark ring = ring ∧ ∀ r ∈ ring, mark ≠ some r.number) ∨
    ∃ (before : List FrameRecord) (marked : FrameRecord),
      mark = some marked.number ∧ ring = before ++ marked :: afterMark mark ring := by
  cases mark with
  | none => exact .inl ⟨rfl, fun _ _ none_ => nomatch none_⟩
  | some m =>
    by_cases on : ring.any (·.number = m)
    · right
      rw [afterMark, if_pos on]
      obtain ⟨r, stored, number⟩ := List.any_eq_true.mp on
      have rest : ring.dropWhile (·.number ≠ m) ≠ [] := by
        rw [Ne, List.dropWhile_eq_nil_iff]
        intro other
        exact absurd (of_decide_eq_true number) (of_decide_eq_true (other r stored))
      refine ⟨ring.takeWhile (·.number ≠ m), (ring.dropWhile (·.number ≠ m)).head rest, ?_, ?_⟩
      · have first := List.head_dropWhile_not (fun r : FrameRecord => decide (r.number ≠ m)) rest
        rw [decide_eq_false_iff_not, not_not] at first
        rw [first]
      · rw [List.cons_head_tail, List.takeWhile_append_dropWhile]
    · left
      refine ⟨if_neg on, fun r stored number => on ?_⟩
      exact List.any_eq_true.mpr ⟨r, stored, by simpa using (Option.some.inj number).symm⟩

/-- The records from one on that the mark is not on are all later than the mark. -/
theorem afterMark_append {mark : Option Word32} {older newer : List FrameRecord}
    (unmarked : ∀ r ∈ newer, mark ≠ some r.number) : ∃ later, afterMark mark (older ++ newer) = later ++ newer := by
  rcases afterMark_cases mark (older ++ newer) with ⟨all, -⟩ | ⟨before, marked, on, split_⟩
  · exact ⟨older, all⟩
  · rcases List.append_eq_append_iff.mp split_ with ⟨c, rfl, newer_eq⟩ | ⟨c, rfl, rest⟩
    · exact absurd on (unmarked marked (by rw [newer_eq]; simp))
    · cases c with
      | nil => exact absurd on (unmarked marked (by rw [List.nil_append] at rest; rw [← rest]; simp))
      | cons r c =>
        rw [List.cons_append, List.cons.injEq] at rest
        exact ⟨c, rest.2⟩

/-- A record with a luma and without SHED (R86). -/
def FrameRecord.usable (f : FrameRecord) : Bool := f.luma.isSome && !f.flags.shed

theorem FrameRecord.usable_iff (f : FrameRecord) : f.usable = true ↔ f.luma ≠ none ∧ f.flags.shed = false := by
  simp [FrameRecord.usable, Option.isSome_iff_ne_none]

/-- The newest usable record is the report when the mark is on neither it nor a newer one. -/
theorem usableReport_newest {mark : Option Word32} {older newer : List FrameRecord} {f : FrameRecord}
    (usable : f.usable = true) (newest : ∀ r ∈ newer, ¬ r.usable = true)
    (unmarked : ∀ r ∈ f :: newer, mark ≠ some r.number) : usableReport mark (older ++ f :: newer) = some f := by
  obtain ⟨later, after⟩ := afterMark_append (older := older) unmarked
  have none_ : newer.reverse.find? FrameRecord.usable = none :=
    List.find?_eq_none.mpr fun r stored => newest r (List.mem_reverse.mp stored)
  show (afterMark mark (older ++ f :: newer)).reverse.find? FrameRecord.usable = some f
  rw [after, List.reverse_append, List.reverse_cons, List.append_assoc, List.find?_append, none_]
  simp [usable]

/-- There is no report when the mark is on each usable record or on a newer one. -/
theorem usableReport_none {mark : Option Word32} {ring : List FrameRecord}
    (once : (ring.map FrameRecord.number).Nodup)
    (all : ∀ (older newer : List FrameRecord) (f : FrameRecord), ring = older ++ f :: newer → f.usable = true →
      ∃ r ∈ f :: newer, mark = some r.number) : usableReport mark ring = none := by
  refine List.find?_eq_none.mpr fun f later usable => ?_
  obtain ⟨between, newer, after⟩ := List.append_of_mem (List.mem_reverse.mp later)
  rcases afterMark_cases mark ring with ⟨whole, unmarked⟩ | ⟨before, marked, on, split_⟩
  · rw [whole] at after
    obtain ⟨r, stored, number⟩ := all between newer f after usable
    exact unmarked r (by rw [after]; exact List.mem_append_right _ stored) number
  · rw [after] at split_
    have split_' : ring = (before ++ marked :: between) ++ f :: newer := by rw [split_]; simp
    obtain ⟨r, stored, number⟩ := all _ newer f split_' usable
    have same : marked.number = r.number := Option.some.inj (on.symm.trans number)
    rw [split_', List.map_append, List.nodup_append] at once
    refine once.2.2 marked.number (by simp) r.number ?_ same
    exact List.mem_map_of_mem stored

end Sys2Proof.Machine
end

section
/-! FRAME_BOUNDARY (R79). -/

namespace Sys2Proof.Machine

theorem exec_frameBoundary {s : State} (running : s.resetLine = false) :
    exec .frameBoundary s = .next (s.reach s.fs.frameDue).boundary :=
  congrArg Host.Outcome.next (State.whenRunning_running _ running)

/-! ### The fields after a boundary -/

theorem State.boundary_fs (s : State) :
    s.boundary.fs = { s.fs with
      frameStart := s.fs.frameDue, frameDue := s.fs.frameDue + 2 * s.cfg.framePeriod
      period := s.cfg.framePeriod, frameNumber := s.fs.frameNumber + 1
      phase := if s.cfg.framePeriod ≤ s.frameAllocated.t + 2000 then .expose else .pre
      windowOpen := s.opensNext, ring := s.olderRecords ++ [s.startedRecord]
      reportMark := (s.frameReport.map FrameRecord.number).or s.fs.reportMark
      carried := s.frameAllocated.pd } := by
  have hold : (s.frameDriven.handInCommit s.frameAllocated.commit).ld.hold = s.staysHeld := by
    obtain ⟨-, -, -, -, -, -, -, -, hold⟩ := s.frameDriven_keeps
    simpa using hold
  have fs : (s.frameDriven.handInCommit s.frameAllocated.commit).fs = s.frameBegun.fs := by
    simp [State.frameDriven]
  rw [State.boundary_eq]
  unfold State.inPhase
  rw [hold, fs, State.startedRecord_eq, State.frameBegun_eq]

theorem State.boundary_sq (s : State) : s.boundary.sq = s.sq.tail := by
  have sq : s.frameBegun.sq = s.sq.tail := by rw [State.frameBegun_eq]
  simpa [State.boundary] using sq

theorem State.boundary_hc (s : State) :
    s.boundary.hc = { s.hc with seq := s.hc.seq.map (HaltSeq.atBoundary s.sq.head?) } := by
  have hc : s.frameBegun.hc = { s.hc with seq := s.hc.seq.map (HaltSeq.atBoundary s.sq.head?) } := by
    rw [State.frameBegun_eq]
  simpa [State.boundary] using hc

/-- The DHALT level stands: a sequence stays one whatever the boundary takes. -/
theorem State.boundary_dhalt (s : State) : s.boundary.hc.dhalt = s.hc.dhalt := by
  rw [State.boundary_hc]
  simp [HaltController.dhalt]

theorem GainWord.gwck_eq (g : Nat) (number : Word32) :
    (GainWord.mk g (frameTag number)).gwck = (List.range 24).map fun i =>
      SensorPulse.gwck (if i < 16 then g.testBit i else number.getLsbD (i - 16)) := by
  rw [GainWord.gwck, ← List.map_coe_finRange_eq_range, List.map_map]
  refine List.map_congr_left fun i _ => congrArg SensorPulse.gwck ?_
  have short : i.val < 24 := i.isLt
  show (frameTag number ++ BitVec.ofNat 16 g).getLsbD i.val = _
  rw [BitVec.getLsbD_append]
  by_cases low : i.val < 16
  · rw [if_pos low, if_pos low, BitVec.getLsbD_ofNat, decide_eq_true low, Bool.true_and]
  · simp [low, frameTag, show i.val - 16 < 8 by omega]

theorem State.boundary_sp (s : State) :
    s.boundary.sp = { s.sp with
      gainWord := some ⟨s.frameAllocated.g, frameTag (s.fs.frameNumber + 1)⟩
      pulses := (GainWord.mk s.frameAllocated.g (frameTag (s.fs.frameNumber + 1))).gwck ++ [.fstart]
      fstartPulses := s.sp.fstartPulses + 1 } := by
  have sp : s.boundary.sp = s.frameDriven.sp := by simp [State.boundary, State.frameDriven]
  rw [sp, State.frameDriven, State.driveFrame_sp, State.frameBegun_eq]
  rfl

/-- The lamps after the boundary: lit at once only in STROBE. -/
theorem State.boundary_ld (s : State) :
    s.boundary.ld = if (s.opensNext && !s.staysHeld) = true ∧ s.ld.writtenMode = .strobe then s.frameDriven.ld.light
      else s.frameDriven.ld := by
  obtain ⟨-, mode, -, -, -, -, -, -, hold⟩ := s.frameDriven_keeps
  have ld : (s.frameDriven.handInCommit s.frameAllocated.commit).ld = s.frameDriven.ld := by simp
  rw [State.boundary_eq]
  unfold State.inPhase
  rw [ld, hold, mode]

theorem State.boundary_ld_keeps (s : State) :
    let l := s.boundary.ld
    l.writtenMode = s.ld.writtenMode ∧ l.mode = s.ld.writtenMode ∧ l.pendingWeights = s.ld.pendingWeights ∧
    l.weights = s.ld.pendingWeights ∧ l.presets = s.ld.presets ∧ l.channelMax = s.cfg.channelMax ∧
    l.standstill = s.lampsReady.standstill ∧ l.dwell = s.lampsReady.dwell ∧ l.hold = s.staysHeld := by
  rw [State.boundary_ld]
  split
  · exact s.frameDriven_keeps
  · exact s.frameDriven_keeps

theorem State.boundary_ld_off {s : State} (off : s.ld.writtenMode = .off) :
    s.boundary.ld = { s.lampsReady.cut with pendingLevels := .all 0 } := by
  rw [State.boundary_ld, if_neg (by simp [off]), State.frameDriven_ld, LampDriver.takeLevels_off off]

theorem State.boundary_ld_strobe {s : State} (strobe : s.ld.writtenMode = .strobe) :
    s.boundary.ld =
      (let lit := if s.opensNext && !s.staysHeld then s.frameAllocated.levels else .all 0
       { s.lampsReady.cut with pendingLevels := s.frameAllocated.levels, activeLevels := lit, outputs := lit }) := by
  rw [State.boundary_ld, State.frameDriven_ld, LampDriver.takeLevels_strobe strobe]
  by_cases lit : (s.opensNext && !s.staysHeld) = true
  · rw [if_pos ⟨lit, strobe⟩, if_pos lit]
    rfl
  · rw [if_neg fun h => lit h.1, if_neg lit]
    rfl

theorem State.boundary_ld_steady {s : State} (steady : s.ld.writtenMode = .steady) :
    s.boundary.ld = s.lampsReady.takeLevels s.fs.frameDue s.previousMode s.staysHeld
      (s.ld.hold && s.ca.sag.isNone) s.frameAllocated.levels := by
  rw [State.boundary_ld, if_neg (by simp [steady]), State.frameDriven_ld]

theorem State.boundary_pendingLevels (s : State) : s.boundary.ld.pendingLevels = s.frameAllocated.levels := by
  cases mode : s.ld.writtenMode with
  | off =>
    have allocated : s.frameAllocated.levels = .all 0 := by
      refine Allocation.levels_off ?_
      rw [State.frameReady_eq]
      exact mode
    rw [State.boundary_ld_off mode, allocated]
  | strobe => rw [State.boundary_ld_strobe mode]
  | steady =>
    rw [State.boundary_ld_steady mode, LampDriver.takeLevels_steady mode]
    (repeat' split) <;> rfl

/-- Outside STEADY the pairs stand (log 19). -/
theorem State.boundary_pairs {s : State} (other : s.ld.writtenMode ≠ .steady) :
    s.boundary.ld.pendingPairs = s.ld.pendingPairs ∧ s.boundary.ld.activePairs = s.ld.activePairs := by
  cases mode : s.ld.writtenMode with
  | off =>
    rw [State.boundary_ld_off mode]
    exact ⟨rfl, rfl⟩
  | strobe =>
    rw [State.boundary_ld_strobe mode]
    exact ⟨rfl, rfl⟩
  | steady => exact absurd mode other

section
variable {s : State} (steady : s.ld.writtenMode = .steady)
include steady

theorem State.boundary_steady_pairs :
    s.boundary.ld.pendingPairs = s.frameAllocated.levels.map (pwmPair s.cfg.channelMax) := by
  rw [State.boundary_ld_steady steady, LampDriver.takeLevels_steady steady]
  (repeat' split) <;> rfl

theorem State.boundary_steady_held (held : s.staysHeld = true) :
    s.boundary.ld = (s.lampsReady.pairing s.frameAllocated.levels).cut := by
  rw [State.boundary_ld_steady steady, LampDriver.takeLevels_held steady held]

theorem State.boundary_steady_begins (free : s.staysHeld = false)
    (begins : s.previousMode ≠ .steady ∨ s.ld.hold = true) :
    s.boundary.ld = (s.lampsReady.pairing s.frameAllocated.levels).startPeriod s.fs.frameDue := by
  have ends : s.previousMode ≠ .steady ∨ (s.ld.hold && s.ca.sag.isNone) = true := by
    refine begins.imp_right fun hold => ?_
    rw [State.staysHeld, hold, Bool.true_and] at free
    rw [hold, Bool.true_and]
    exact Option.isSome_eq_false_iff.mp free
  rw [State.boundary_ld_steady steady, LampDriver.takeLevels_begins steady free ends]

theorem State.boundary_steady_goes (goes : s.previousMode = .steady) (free : s.ld.hold = false) :
    s.boundary.ld = s.lampsReady.pairing s.frameAllocated.levels := by
  have stays : s.staysHeld = false := by rw [State.staysHeld, free, Bool.false_and]
  rw [State.boundary_ld_steady steady, LampDriver.takeLevels_goes steady stays goes (by rw [free, Bool.false_and])]

end

/-! ### The commit handed in (R66) -/

theorem State.boundary_ca (s : State) :
    s.boundary.ca = (s.frameDriven.handInCommit s.frameAllocated.commit).ca ∧
    s.boundary.pi = (s.frameDriven.handInCommit s.frameAllocated.commit).pi := by
  simp [State.boundary, State.frameDriven]

theorem State.frameDriven_base (s : State) :
    s.frameDriven.cfg = s.cfg ∧ s.frameDriven.ca = s.ca ∧ s.frameDriven.pi = s.pi := by
  have pi : s.frameBegun.pi = s.pi := by rw [State.frameBegun_eq]
  simp [State.frameDriven, pi]

theorem State.boundary_sagging {s : State} (sag : s.ca.sag ≠ none) :
    s.boundary.ca = { s.ca with commit := 0 } ∧ s.boundary.pi = s.pi := by
  obtain ⟨-, ca, pi⟩ := s.frameDriven_base
  rw [s.boundary_ca.1, s.boundary_ca.2, State.handInCommit, ca, if_pos (Option.isSome_iff_ne_none.mpr sag)]
  exact ⟨rfl, pi⟩

theorem State.boundary_serves {s : State} (clear : s.ca.sag = none) :
    let served := State.serve { s with ca := { s.ca with commit := s.frameAllocated.commit } }
    s.boundary.ca = served.ca ∧ s.boundary.pi = served.pi := by
  obtain ⟨cfg, ca, pi⟩ := s.frameDriven_base
  rw [s.boundary_ca.1, s.boundary_ca.2, State.handInCommit, ca, if_neg (by simp [clear])]
  exact State.serve_congr (s := { s with ca := { s.ca with commit := s.frameAllocated.commit } })
    (t := { s.frameDriven with ca := { s.ca with commit := s.frameAllocated.commit } }) cfg rfl pi

/-! ### The allocation -/

/-- What a claim waits for (R65). -/
def Claim.waits (c : Claim) : Nat := if c.state = .settled then 0 else c.requested - c.granted

theorem Arbiter.needs_eq (a : Arbiter) :
    a.needs = a.claims.surface.waits + a.claims.drive.waits + a.claims.head.waits := by
  simp only [Arbiter.needs, Claim.waits, Claim.need]
  congr 1
  · congr 1
    · split <;> simp [*]
    · split <;> simp [*]
  · split <;> simp [*]

/-- The inputs of the starting frame's allocation. -/
theorem State.allocation_eq (s : State) :
    s.frameReady.allocation s.frameReport s.sq.head?.isSome =
      { cfg := s.cfg, mode := s.ld.writtenMode
        report := s.frameReport.bind fun r => r.luma.map fun m => (m, r.pd)
        carried := s.fs.carried, velocity := s.cu.velocity
        allowance := max s.cfg.lampFloor (s.cfg.tetherAllowance - (s.ca.granted +
          (s.ca.claims.surface.waits + s.ca.claims.drive.waits + s.ca.claims.head.waits)))
        weights := s.ld.pendingWeights, channelMax := s.cfg.channelMax
        dwell := s.ld.dwell, still := s.sq.head?.isSome } := by
  rw [State.frameReady_eq, ← Arbiter.needs_eq]
  rfl

section
variable {a : Allocation}

theorem Allocation.lampCommit_off (off : a.mode = .off) : a.lampCommit = 0 := by
  rw [Allocation.lampCommit, off]

theorem Allocation.lampCommit_steady (steady : a.mode = .steady) : a.lampCommit = a.delivered := by
  rw [Allocation.lampCommit, steady]

theorem Allocation.lampCommit_strobe (strobe : a.mode = .strobe) :
    a.lampCommit = (a.delivered * (a.exposure + 20) + (a.cfg.framePeriod - 1)) / a.cfg.framePeriod := by
  rw [Allocation.lampCommit, strobe]
  rfl

end

theorem usableReport_luma {mark : Option Word32} {ring : List FrameRecord} {f : FrameRecord}
    (found : usableReport mark ring = some f) : f.luma ≠ none :=
  ((FrameRecord.usable_iff f).mp (List.find?_some (p := FrameRecord.usable) found)).1

/-- A frame is late with its statistics exactly when no report is usable. -/
theorem State.frameAllocated_statsLate (s : State) : s.frameAllocated.statsLate = s.frameReport.isNone := by
  show (s.frameReport.bind fun r => r.luma.map fun m => (m, r.pd)).isNone = _
  cases found : s.frameReport with
  | none => rfl
  | some f =>
    obtain ⟨m, luma⟩ := Option.ne_none_iff_exists'.mp (usableReport_luma found)
    rw [Option.bind_some, luma]
    rfl

theorem frameTag_eq (number : Word32) : frameTag number = number.truncate 8 := by
  rw [BitVec.truncate, BitVec.setWidth_eq_extractLsb' (by decide)]
  rfl

/-- Settles O34. -/
theorem boundaryStartsTheNextFrame : Obligations.BoundaryStartsTheNextFrame := by
  refine ⟨?_, ?_⟩
  · intro s running need claims report a previous
    have allocated : (s.reach s.fs.frameDue).frameAllocated = a.run :=
      congrArg Allocation.run (State.allocation_eq (s.reach s.fs.frameDue))
    obtain ⟨base, now, cu, wt, linkHalt, jn, latches, li⟩ := (s.reach s.fs.frameDue).boundary_frame
    have fs := (s.reach s.fs.frameDue).boundary_fs
    have opens : (s.reach s.fs.frameDue).boundary.fs.windowOpen = (s.reach s.fs.frameDue).opensNext :=
      congrArg FrameSequencer.windowOpen fs
    have attitude := congrArg FrameSequencer.attitude fs
    have pose := congrArg FrameSequencer.pose fs
    have standing := (s.reach s.fs.frameDue).boundary_ld_keeps
    obtain ⟨writtenMode, mode, pendingWeights, weights, presets, channelMax, standstill, dwell, hold⟩ := standing
    refine ⟨(s.reach s.fs.frameDue).boundary, (s.reach s.fs.frameDue).startedRecord, exec_frameBoundary running,
      now, congrArg FrameSequencer.frameStart fs, congrArg FrameSequencer.frameDue fs,
      congrArg FrameSequencer.period fs, congrArg FrameSequencer.frameNumber fs, congrArg FrameSequencer.ring fs,
      rfl, rfl, rfl, rfl, rfl, rfl, congrArg Allocated.t allocated, congrArg Allocated.g allocated,
      congrArg Allocated.pd allocated, congrArg Allocated.levels allocated, congrArg Allocated.d allocated, rfl,
      State.frameAllocated_statsLate (s.reach s.fs.frameDue), congrArg Allocated.overlit allocated,
      congrArg Allocated.underlit allocated, rfl, rfl, rfl, ?_, ?_, ?_, congrArg FrameSequencer.carried fs,
      State.boundary_sq (s.reach s.fs.frameDue), congrArg FrameSequencer.phase fs, ?_, mode, writtenMode, weights,
      pendingWeights, presets, channelMax, State.boundary_pendingLevels (s.reach s.fs.frameDue), hold,
      ?_, ?_, State.boundary_pairs (s := s.reach s.fs.frameDue),
      fun steady => ⟨State.boundary_steady_pairs (s := s.reach s.fs.frameDue) steady, ?_, ?_, ?_⟩,
      dwell, ?_, State.boundary_hc (s.reach s.fs.frameDue), ?_, State.boundary_sagging (s := s.reach s.fs.frameDue),
      cu, wt, jn, li, base.2.2.1, attitude, pose,
      State.boundary_dhalt (s.reach s.fs.frameDue)⟩
    · rw [opens]
      show State.opensNext (s.reach s.fs.frameDue) = _
      unfold State.opensNext
      show LampMode.opensAtBoundary s.ld.writtenMode _ _ = _
      cases s.ld.writtenMode <;> rfl
    · rw [opens, hold]
      rfl
    · refine (congrArg FrameSequencer.reportMark fs).trans ?_
      show (report.map FrameRecord.number).or s.fs.reportMark = _
      cases report <;> rfl
    · rw [State.boundary_sp, GainWord.gwck_eq, frameTag_eq]
      rfl
    · intro off
      rw [State.boundary_ld_off (s := s.reach s.fs.frameDue) off]
      exact ⟨rfl, rfl, rfl⟩
    · intro strobe lit
      have lit_eq : lit = if (s.reach s.fs.frameDue).opensNext && !(s.reach s.fs.frameDue).staysHeld then
          (s.reach s.fs.frameDue).frameAllocated.levels else .all 0 := by
        rw [← opens, ← hold]
        rfl
      rw [lit_eq, State.boundary_ld_strobe (s := s.reach s.fs.frameDue) strobe]
      exact ⟨rfl, rfl, rfl⟩
    · intro held
      rw [State.boundary_steady_held (s := s.reach s.fs.frameDue) steady (hold.symm.trans held)]
      exact ⟨rfl, rfl, rfl, rfl⟩
    · intro free begins
      rw [State.boundary_steady_begins (s := s.reach s.fs.frameDue) steady (hold.symm.trans free) begins]
      exact ⟨rfl, rfl, rfl, rfl⟩
    · intro free goes clear
      rw [State.boundary_steady_goes (s := s.reach s.fs.frameDue) steady goes clear]
      exact ⟨rfl, rfl, rfl, rfl⟩
    · rw [standstill, now]
      rfl
    · intro clear commit served
      have commit_eq : (s.reach s.fs.frameDue).frameAllocated.commit = commit := by
        have d : (s.reach s.fs.frameDue).frameAllocated.d = a.delivered := congrArg Allocated.d allocated
        have t : (s.reach s.fs.frameDue).frameAllocated.t = a.exposure := congrArg Allocated.t allocated
        refine (congrArg Allocated.commit allocated).trans ?_
        show a.lampCommit = commit
        cases mode : s.ld.writtenMode with
        | off =>
          simp only [commit, mode]
          exact Allocation.lampCommit_off mode
        | strobe =>
          simp only [commit, mode, State.startedRecord, State.begunRecord, newRecord, d, t]
          exact Allocation.lampCommit_strobe mode
        | steady =>
          simp only [commit, mode, State.startedRecord, State.begunRecord, newRecord, d]
          exact Allocation.lampCommit_steady mode
      obtain ⟨ca, pi⟩ := State.boundary_serves (s := s.reach s.fs.frameDue) clear
      rw [commit_eq] at ca pi
      obtain ⟨ca_eq, pi_eq⟩ := State.serve_congr (s := { s with ca := { s.ca with commit := commit } })
        (t := { s.reach s.fs.frameDue with ca := { s.ca with commit := commit } }) rfl rfl rfl
      have given : (s.reach s.fs.frameDue).boundary.ca = served.ca := ca.trans ca_eq
      exact ⟨by rw [given, State.serve_commit], given, pi.trans pi_eq⟩
  · intro mark ring once usable
    refine ⟨fun older newer f ring_eq good newest unmarked => ?_, fun all => ?_⟩
    · subst ring_eq
      exact usableReport_newest ((FrameRecord.usable_iff f).mpr good)
        (fun r stored good => newest r stored ((FrameRecord.usable_iff r).mp good)) unmarked
    · exact usableReport_none once fun older newer f ring_eq good =>
        all older newer f ring_eq ((FrameRecord.usable_iff f).mp good)

end Sys2Proof.Machine
end

section
/-! Frames (12.1): the CRC, what a receiver makes of a frame's bytes (R163), and the fields' bytes. -/

namespace Sys2Proof.Machine

/-! ### The CRC (R187) -/

/-- One shift of the CRC register by its top bit. -/
theorem crcShift_eq (r : Half) : crcShift r = if r.getLsbD 15 then (r <<< 1) ^^^ 0x1021 else r <<< 1 := by
  rw [crcShift, BitVec.msb_eq_getLsbD_last]

theorem crcShifts_eight (r : Half) :
    crcShifts 8 r =
      (List.range 8).foldl (fun r _ => if r.getLsbD 15 then (r <<< 1) ^^^ 0x1021 else r <<< 1) r := by
  simp only [← crcShift_eq]
  rfl

/-- A byte stands in the register's high byte. -/
theorem byte_high (b : Byte) : (b ++ (0 : Byte) : Half) = b.zeroExtend 16 <<< 8 := by
  apply BitVec.eq_of_toNat_eq
  have := b.isLt
  rw [BitVec.toNat_append]
  simp [Nat.shiftLeft_eq]
  omega

theorem crc16_append (bs : List Byte) (b : Byte) :
    crc16 (bs ++ [b]) = (List.range 8).foldl
      (fun r _ => if r.getLsbD 15 then (r <<< 1) ^^^ 0x1021 else r <<< 1)
      (crc16 bs ^^^ (b.zeroExtend 16 <<< 8)) := by
  rw [crc16, List.foldl_append, ← crcShifts_eight, ← byte_high]
  rfl

/-! ### What a receiver makes of bytes -/

theorem Receiver.feed_more {r r' : Receiver} {b : Byte} (more : r.take b = .more r') (rest : List Byte) :
    r.feed (b :: rest) = r'.feed rest := by
  rw [Receiver.feed, more]

theorem Receiver.feed_last {r : Receiver} {b : Byte} {payload : List Byte} (valid : r.take b = .valid payload) :
    r.feed [b] = .valid payload := by
  rw [Receiver.feed, valid]
  rfl

theorem Receiver.feed_discards {r : Receiver} {b : Byte} (bad : r.take b = .discarded) (rest : List Byte) :
    r.feed (b :: rest) = .discarded := by
  rw [Receiver.feed, bad]
  dsimp only
  rw [ite_self]

/-- A valid frame ends with its last byte: every byte before it leaves the receiver within the frame. -/
theorem Receiver.feed_valid {r : Receiver} {bytes payload : List Byte} (valid : r.feed bytes = .valid payload) :
    ∃ (before : List Byte) (last : Byte) (r' : Receiver), bytes = before ++ [last] ∧ r.feed before = .more r' ∧
      r'.take last = .valid payload := by
  induction bytes generalizing r with
  | nil => cases valid
  | cons b rest ih =>
    cases taken : r.take b with
    | more r₁ =>
      rw [Receiver.feed_more taken] at valid
      obtain ⟨before, last, r', rfl, within, ends⟩ := ih valid
      exact ⟨b :: before, last, r', rfl, (Receiver.feed_more taken before).trans within, ends⟩
    | discarded =>
      rw [Receiver.feed_discards taken] at valid
      cases valid
    | valid payload' =>
      rw [Receiver.feed, taken] at valid
      cases rest with
      | nil => exact ⟨[], b, r, rfl, rfl, taken.trans valid⟩
      | cons c rest => cases valid

/-- The payload's bytes, but for the count that they fill. -/
theorem Receiver.feed_body (len : Byte) {got xs : List Byte} (some_ : xs ≠ [])
    (fills : got.length + xs.length = len.toNat) (rest : List Byte) :
    (Receiver.body len got).feed (xs ++ rest) = (Receiver.check len (got ++ xs) none).feed rest := by
  induction xs generalizing got with
  | nil => exact absurd rfl some_
  | cons x xs ih =>
    rw [List.length_cons] at fills
    cases xs with
    | nil =>
      have full : ¬ (got ++ [x]).length < len.toNat := by simp at fills ⊢; omega
      exact Receiver.feed_more (by rw [Receiver.take, if_neg full]) rest
    | cons y ys =>
      have short : (got ++ [x]).length < len.toNat := by simp at fills ⊢; omega
      rw [List.cons_append, Receiver.feed_more (r' := .body len (got ++ [x])) (by rw [Receiver.take, if_pos short]),
        ih (List.cons_ne_nil y ys) (by simp at fills ⊢; omega), List.append_assoc, List.singleton_append]

theorem half_eq_iff (c0 c1 : Byte) (x : Half) : half c0 c1 = x ↔ [c0, c1] = le16 x := by
  constructor
  · rintro rfl
    exact (le16_half c0 c1).symm
  · intro bytes
    rw [le16, List.cons.injEq, List.cons.injEq] at bytes
    obtain ⟨rfl, rfl, -⟩ := bytes
    exact half_le16 x

/-- A frame's length, payload and CRC meet a receiver in HUNT. -/
theorem Receiver.feed_frame {payload : List Byte} (some_ : payload ≠ []) (short : payload.length ≤ 250)
    (c0 c1 : Byte) :
    Receiver.hunt.feed ([0xA5] ++ (BitVec.ofNat 8 payload.length :: payload) ++ [c0, c1]) =
      if [c0, c1] = le16 (crc16 (BitVec.ofNat 8 payload.length :: payload)) then .valid payload else .discarded := by
  have count : (BitVec.ofNat 8 payload.length).toNat = payload.length := by
    rw [BitVec.toNat_ofNat]
    exact Nat.mod_eq_of_lt (by omega)
  have length : Receiver.length.take (BitVec.ofNat 8 payload.length) =
      .more (.body (BitVec.ofNat 8 payload.length) []) := by
    have nonzero : BitVec.ofNat 8 payload.length ≠ 0 := by
      intro zero
      have := List.length_pos_iff.mpr some_
      rw [zero] at count
      exact absurd count (by simpa using (Nat.ne_of_lt this))
    rw [Receiver.take, if_neg (by rintro (zero | large); exact nonzero zero; omega)]
  have ends := Receiver.feed_body (BitVec.ofNat 8 payload.length) (got := []) some_ (by simp [count]) [c0, c1]
  rw [List.nil_append] at ends
  show Receiver.hunt.feed (0xA5 :: BitVec.ofNat 8 payload.length :: (payload ++ [c0, c1])) = _
  rw [Receiver.feed_more (r' := .length) rfl, Receiver.feed_more length, ends,
    Receiver.feed_more (r' := .check _ payload (some c0)) rfl]
  by_cases crc : [c0, c1] = le16 (crc16 (BitVec.ofNat 8 payload.length :: payload))
  · rw [if_pos crc]
    exact Receiver.feed_last (if_pos ((half_eq_iff c0 c1 _).mpr crc))
  · rw [if_neg crc]
    refine Receiver.feed_discards ?_ []
    exact if_neg fun same => crc ((half_eq_iff c0 c1 _).mp same)

/-- A request's frame is valid. -/
theorem Receiver.feed_frameBytes {payload : List Byte} (some_ : payload ≠ []) (short : payload.length ≤ 250) :
    Receiver.hunt.feed (frameBytes payload) = .valid payload := by
  have valid := Receiver.feed_frame some_ short
    ((crc16 (BitVec.ofNat 8 payload.length :: payload)).extractLsb' 0 8)
    ((crc16 (BitVec.ofNat 8 payload.length :: payload)).extractLsb' 8 8)
  exact valid.trans (if_pos rfl)

/-! ### The bytes of fields (12.1) -/

theorem u16_eq (n : Nat) : u16 n = [BitVec.ofNat 8 n, BitVec.ofNat 8 (n / 256)] := by
  simp only [u16, le16, List.cons.injEq, and_true]
  refine ⟨BitVec.eq_of_toNat_eq ?_, BitVec.eq_of_toNat_eq ?_⟩
  · simp only [BitVec.extractLsb'_toNat, BitVec.toNat_ofNat, Nat.shiftRight_eq_div_pow]
    omega
  · simp only [BitVec.extractLsb'_toNat, BitVec.toNat_ofNat, Nat.shiftRight_eq_div_pow]
    omega

theorem u32_eq (n : Nat) : u32 n = u16 n ++ u16 (n / 65536) := by
  rw [u16_eq, u16_eq]
  simp only [u32, le32, List.cons_append, List.nil_append, List.cons.injEq, and_true]
  refine ⟨BitVec.eq_of_toNat_eq ?_, BitVec.eq_of_toNat_eq ?_, BitVec.eq_of_toNat_eq ?_, BitVec.eq_of_toNat_eq ?_⟩
  all_goals
    simp only [BitVec.extractLsb'_toNat, BitVec.toNat_ofNat, Nat.shiftRight_eq_div_pow]
    omega

theorem s16_eq (i : Int) : s16 i = u16 (i.emod 65536).toNat := by
  refine congrArg le16 (BitVec.eq_of_toNat_eq ?_)
  rw [BitVec.toNat_ofInt, BitVec.toNat_ofNat]
  have low := Int.emod_nonneg i (b := 65536) (by decide)
  have high := Int.emod_lt_of_pos i (b := 65536) (by decide)
  show (i % 65536).toNat = (i % 65536).toNat % 65536
  omega

theorem s32_eq (i : Int) : s32 i = u32 (i.emod 4294967296).toNat := by
  refine congrArg le32 (BitVec.eq_of_toNat_eq ?_)
  rw [BitVec.toNat_ofInt, BitVec.toNat_ofNat]
  have low := Int.emod_nonneg i (b := 4294967296) (by decide)
  have high := Int.emod_lt_of_pos i (b := 4294967296) (by decide)
  show (i % 4294967296).toNat = (i % 4294967296).toNat % 4294967296
  omega

theorem le16_eq (x : Half) : le16 x = u16 x.toNat := by rw [u16, BitVec.ofNat_toNat, BitVec.setWidth_eq]

theorem le32_eq (x : Word32) : le32 x = u32 x.toNat := by rw [u32, BitVec.ofNat_toNat, BitVec.setWidth_eq]

/-! ### Requests and their payloads -/

theorem mem_requestCodes {code : Byte} {n : Nat} (number : code.toNat = n)
    (listed : BitVec.ofNat 8 n ∈ requestCodes) : code ∈ requestCodes := by
  rwa [← number, BitVec.ofNat_toNat, BitVec.setWidth_eq] at listed

theorem requestOf_unknown {p : Port} {code : Byte} {args : List Byte} (unknown : code ∉ requestCodes) :
    requestOf p code args = .unknownRequest p code args := by
  unfold requestOf
  split
  case h_35 => rfl
  all_goals
    next number => exact absurd (mem_requestCodes number (by decide)) unknown

/-- The command that a request's payload spells is that request. -/
theorem requestOf_asRequest {i : Instr} {p : Port} {code : Byte} {args : List Byte} (spelled : i.wellFormed = true)
    (request : asRequest i = some (p, code, args)) : requestOf p code args = i := by
  cases i <;> cases request
  case unknownRequest =>
    have unknown : code ∉ requestCodes := by
      simpa [Instr.wellFormed, Instr.codeUnknown] using (Bool.and_eq_true_iff.mp spelled).2
    exact requestOf_unknown unknown
  all_goals rfl

theorem asRequest_args {i : Instr} {p : Port} {code : Byte} {args : List Byte}
    (request : asRequest i = some (p, code, args)) : i.args = args := by
  cases i <;> cases request <;> rfl

/-- A request's payload fits a frame (R163). -/
theorem wellFormed_fits {i : Instr} {p : Port} {code : Byte} {args : List Byte} (spelled : i.wellFormed = true)
    (request : asRequest i = some (p, code, args)) : (code :: args).length ≤ 250 := by
  have fits := (Bool.and_eq_true_iff.mp spelled).1
  rw [asRequest_args request, argsFit, decide_eq_true_eq] at fits
  exact Nat.succ_le_succ fits

theorem feed_request {i : Instr} {p : Port} {code : Byte} {args : List Byte} (spelled : i.wellFormed = true)
    (request : asRequest i = some (p, code, args)) :
    Receiver.hunt.feed (frameBytes (code :: args)) = .valid (code :: args) :=
  Receiver.feed_frameBytes (List.cons_ne_nil _ _) (wellFormed_fits spelled request)

end Sys2Proof.Machine
end

section
/-! A transaction on the drive port (R167): what its clocks take and give, and what its end hands over. -/

namespace Sys2Proof.Machine

/-! ### A bus receiver and the frame kept -/

/-- A bus receiver and the frame kept, after one more byte. -/
def Receiver.meets (r : Receiver) (kept : Option (List Byte)) (x : Byte) : Receiver × Option (List Byte) :=
  match kept with
  | some f => (r, some f)
  | none =>
    match r.take x with
    | .more r' => (r', none)
    | .discarded => (.hunt, none)
    | .valid payload => (.hunt, some payload)

theorem State.setReceiver_same (p : Port) (s : State) : s.setReceiver p (s.pi.receivers.get p) = s := by
  cases p <;> rfl

theorem State.busByte_eq (b : BusPort) (x : Byte) (kept : Option (List Byte)) (s : State) :
    s.busByte b x kept =
      (s.setReceiver b.port ((s.pi.receivers.get b.port).meets kept x).1,
        ((s.pi.receivers.get b.port).meets kept x).2) := by
  cases kept with
  | some f =>
    show (s, some f) = (s.setReceiver b.port (s.pi.receivers.get b.port), some f)
    rw [State.setReceiver_same]
  | none =>
    cases taken : (s.pi.receivers.get b.port).take x with
    | more r => simp only [State.busByte, Receiver.meets, taken]
    | discarded => simp only [State.busByte, Receiver.meets, taken]
    | valid payload => simp only [State.busByte, Receiver.meets, taken]

/-- Bytes that stay within a frame keep none. -/
theorem Receiver.meets_more {r r' : Receiver} {x : Byte} (more : r.take x = .more r') :
    r.meets none x = (r', none) := by
  simp only [Receiver.meets, more]

theorem Receiver.meets_valid {r : Receiver} {x : Byte} {payload : List Byte} (valid : r.take x = .valid payload) :
    r.meets none x = (.hunt, some payload) := by
  simp only [Receiver.meets, valid]

/-- A receiver and the frame kept, after a run of bytes. -/
def Receiver.meetsAll (r : Receiver) (kept : Option (List Byte)) (bytes : List Byte) :
    Receiver × Option (List Byte) :=
  bytes.foldl (fun q x => q.1.meets q.2 x) (r, kept)

theorem Receiver.meetsAll_kept (r : Receiver) (f : List Byte) (bytes : List Byte) :
    r.meetsAll (some f) bytes = (r, some f) := by
  induction bytes with
  | nil => rfl
  | cons x rest ih => exact ih

theorem Receiver.meetsAll_within {r r' : Receiver} {bytes : List Byte} (within : r.feed bytes = .more r') :
    r.meetsAll none bytes = (r', none) := by
  induction bytes generalizing r with
  | nil =>
    cases within
    rfl
  | cons x rest ih =>
    cases taken : r.take x with
    | more r₁ =>
      rw [Receiver.feed_more taken] at within
      rw [Receiver.meetsAll, List.foldl_cons, Receiver.meets_more taken]
      exact ih within
    | discarded =>
      rw [Receiver.feed_discards taken] at within
      cases within
    | valid payload =>
      rw [Receiver.feed, taken] at within
      cases rest <;> cases within

/-- The bytes of a valid frame keep its payload, and those that follow change nothing. -/
theorem Receiver.meetsAll_valid {r : Receiver} {bytes payload : List Byte} (valid : r.feed bytes = .valid payload)
    (more : List Byte) : r.meetsAll none (bytes ++ more) = (.hunt, some payload) := by
  obtain ⟨before, last, r', rfl, within, ends⟩ := Receiver.feed_valid valid
  rw [List.append_assoc, Receiver.meetsAll, List.foldl_append]
  have met : before.foldl (fun q x => Receiver.meets q.1 q.2 x) (r, none) = (r', none) :=
    Receiver.meetsAll_within within
  rw [met, List.singleton_append, List.foldl_cons, Receiver.meets_valid ends]
  exact Receiver.meetsAll_kept .hunt payload more

/-! ### The clocks of DSCK -/

/-- What the drive port shifts out from its selection on. -/
def State.driveOut (s : State) : List Bool := (s.slotRead .drive).bytes.flatMap spiBits

/-- The transaction after n clocks. -/
def State.atClock (r : Receiver) (bits : List Bool) (started ignoring : Bool) (frame : Option (List Byte)) (n : Nat)
    (s : State) : State :=
  { s with pi := { s.pi with
      receivers := s.pi.receivers.set .drive r
      spi := ⟨true, false, bits, started, ignoring, frame, s.driveOut.drop (n + 1),
        some (s.driveOut.getD n false)⟩ } }

theorem headD_drop_eq_getD (xs : List Bool) (n : Nat) (x : Bool) : (xs.drop n).headD x = xs.getD n x := by
  rw [List.headD_eq_head?_getD, List.head?_drop, List.getD_eq_getElem?_getD]

theorem State.driveSelect_eq (s : State) :
    s.driveSelect = s.atClock s.pi.receivers.drive [] false false none 0 := by
  have tail : s.driveOut.drop (0 + 1) = s.driveOut.tail := List.drop_one
  have head : s.driveOut.getD 0 false = s.driveOut.headD false := by rw [← headD_drop_eq_getD, List.drop_zero]
  unfold State.atClock
  rw [tail, head]
  rfl

/-- A byte of a transaction that is ignored. -/
theorem State.driveByte_ignored {s : State} {b : Byte}
    (ignored : (s.pi.spi.ignoring || (!s.pi.spi.started && decide (b ≠ 0xA5))) = true) :
    s.driveByte b = { s with pi := { s.pi with
      spi := { s.pi.spi with bits := [], started := true, ignoring := true } } } := by
  simp only [State.driveByte, ignored, if_true]

/-- A byte of a transaction that meets the receiver. -/
theorem State.driveByte_taken {s : State} {b : Byte}
    (taken : (s.pi.spi.ignoring || (!s.pi.spi.started && decide (b ≠ 0xA5))) = false) :
    s.driveByte b = { s with pi := { s.pi with
      receivers := s.pi.receivers.set .drive (s.pi.receivers.drive.meets s.pi.spi.frame b).1
      spi := { s.pi.spi with
        bits := [], started := true, ignoring := false
        frame := (s.pi.receivers.drive.meets s.pi.spi.frame b).2 } } } := by
  simp only [State.driveByte, taken, if_neg Bool.false_ne_true, State.busByte_eq]
  rfl

section
variable {r : Receiver} {bits : List Bool} {started ignoring : Bool} {frame : Option (List Byte)} {n : Nat} {s : State}

/-- A clock inside a byte. -/
theorem State.atClock_bit (inside : bits.length < 7) (x : Bool) :
    ((s.atClock r bits started ignoring frame n).dsckRise x).dsckFall =
      s.atClock r (bits ++ [x]) started ignoring frame (n + 1) := by
  rw [State.dsck_bit rfl rfl inside]
  unfold State.atClock
  dsimp only
  rw [List.tail_drop, headD_drop_eq_getD]

/-- The clock that completes a byte to be ignored. -/
theorem State.atClock_ignored (eighth : bits.length = 7) (x : Bool)
    (ignored : (ignoring || (!started && decide (spiByte (bits ++ [x]) ≠ 0xA5))) = true) :
    ((s.atClock r bits started ignoring frame n).dsckRise x).dsckFall =
      s.atClock r [] true true frame (n + 1) := by
  rw [State.dsck_byte rfl rfl eighth, State.driveByte_ignored ignored]
  unfold State.atClock
  dsimp only
  rw [List.tail_drop, headD_drop_eq_getD]

/-- The clock that completes a byte to be taken. -/
theorem State.atClock_taken (eighth : bits.length = 7) (x : Bool)
    (taken : (ignoring || (!started && decide (spiByte (bits ++ [x]) ≠ 0xA5))) = false) :
    ((s.atClock r bits started ignoring frame n).dsckRise x).dsckFall =
      s.atClock (r.meets frame (spiByte (bits ++ [x]))).1 [] true false
        (r.meets frame (spiByte (bits ++ [x]))).2 (n + 1) := by
  rw [State.dsck_byte rfl rfl eighth, State.driveByte_taken taken]
  unfold State.atClock
  dsimp only
  rw [List.tail_drop, headD_drop_eq_getD]
  rfl

end

end Sys2Proof.Machine
end

section
/-! Runs of clocks on the drive port (R167). -/

namespace Sys2Proof.Machine

/-- A run of whole clocks of DSCK. -/
def State.clocks (xs : List Bool) (u : State) : State := xs.foldl (fun u x => (u.dsckRise x).dsckFall) u

theorem State.clocks_cons (x : Bool) (xs : List Bool) (u : State) :
    u.clocks (x :: xs) = ((u.dsckRise x).dsckFall).clocks xs := rfl

theorem State.clocks_append (xs ys : List Bool) (u : State) : u.clocks (xs ++ ys) = (u.clocks xs).clocks ys :=
  List.foldl_append

/-! ### The bits of a byte -/

theorem spiBits_eq (b : Byte) : spiBits b = (List.range 8).map fun k => b.getLsbD (7 - k) := by
  rw [spiBits, ← List.map_coe_finRange_eq_range, List.map_map]
  refine List.map_congr_left fun i _ => ?_
  simp [BitVec.getMsb, BitVec.getLsb, BitVec.testBit_toNat]

section
variable {r : Receiver} {bits : List Bool} {started ignoring : Bool} {frame : Option (List Byte)} {n : Nat} {s : State}

/-- Fewer clocks than a byte's. -/
theorem State.clocks_short {xs : List Bool} (short : bits.length + xs.length ≤ 7) :
    (s.atClock r bits started ignoring frame n).clocks xs =
      s.atClock r (bits ++ xs) started ignoring frame (n + xs.length) := by
  induction xs generalizing bits n with
  | nil => simp [State.clocks]
  | cons x xs ih =>
    rw [List.length_cons] at short
    rw [State.clocks_cons, State.atClock_bit (by omega), ih (by simp; omega), List.append_assoc,
      List.singleton_append, List.length_cons, Nat.add_assoc, Nat.add_comm 1]

/-- The eighth bit of a byte comes after seven. -/
theorem spiBits_split (b : Byte) : ∃ (front : List Bool) (x : Bool), spiBits b = front ++ [x] ∧ front.length = 7 :=
  ⟨(spiBits b).take 7, b.getLsbD 0, by rw [spiBits_eq]; rfl, by simp⟩

theorem State.clocks_ignored {b : Byte} (ignored : (ignoring || (!started && decide (b ≠ 0xA5))) = true) :
    (s.atClock r [] started ignoring frame n).clocks (spiBits b) = s.atClock r [] true true frame (n + 8) := by
  obtain ⟨front, x, split_, seven⟩ := spiBits_split b
  have whole : spiByte (front ++ [x]) = b := by rw [← split_, spiByte_spiBits]
  rw [split_, State.clocks_append, State.clocks_short (by simp [seven]), List.nil_append]
  show ((s.atClock r front started ignoring frame (n + front.length)).dsckRise x).dsckFall = _
  rw [State.atClock_ignored seven x (by rw [whole]; exact ignored), seven]

theorem State.clocks_taken {b : Byte} (taken : (ignoring || (!started && decide (b ≠ 0xA5))) = false) :
    (s.atClock r [] started ignoring frame n).clocks (spiBits b) =
      s.atClock (r.meets frame b).1 [] true false (r.meets frame b).2 (n + 8) := by
  obtain ⟨front, x, split_, seven⟩ := spiBits_split b
  have whole : spiByte (front ++ [x]) = b := by rw [← split_, spiByte_spiBits]
  rw [split_, State.clocks_append, State.clocks_short (by simp [seven]), List.nil_append]
  show ((s.atClock r front started ignoring frame (n + front.length)).dsckRise x).dsckFall = _
  rw [State.atClock_taken seven x (by rw [whole]; exact taken), whole, seven]

/-- The bytes of a transaction that began with A5H meet the receiver one after another. -/
theorem State.clocks_bytes (bytes : List Byte) :
    (s.atClock r [] true false frame n).clocks (bytes.flatMap spiBits) =
      s.atClock (r.meetsAll frame bytes).1 [] true false (r.meetsAll frame bytes).2 (n + 8 * bytes.length) := by
  induction bytes generalizing r frame n with
  | nil => rfl
  | cons b rest ih =>
    rw [List.flatMap_cons, State.clocks_append, State.clocks_taken rfl, ih, List.length_cons, Nat.add_assoc,
      Nat.mul_succ, Nat.add_comm 8]
    rfl

/-- Any clock leaves a transaction with fewer than eight bits of a byte; one that ignores its bytes, or has kept
its frame, goes on so. -/
theorem State.atClock_goes (inside : bits.length ≤ 7) (x : Bool) :
    ∃ r' bits' started' ignoring' frame', bits'.length ≤ 7 ∧
      ((s.atClock r bits started ignoring frame n).dsckRise x).dsckFall =
        s.atClock r' bits' started' ignoring' frame' (n + 1) ∧
      (ignoring = true ∨ started = true ∧ frame ≠ none → r' = r ∧ frame' = frame ∧
        (ignoring' = true ∨ started' = true ∧ frame' ≠ none)) := by
  rcases Nat.lt_or_eq_of_le inside with short | eighth
  · exact ⟨r, bits ++ [x], started, ignoring, frame, by simp; omega, State.atClock_bit short x,
      fun settled => ⟨rfl, rfl, settled⟩⟩
  · cases met : ignoring || (!started && decide (spiByte (bits ++ [x]) ≠ 0xA5)) with
    | true => exact ⟨r, [], true, true, frame, by simp, State.atClock_ignored eighth x met,
        fun _ => ⟨rfl, rfl, .inl rfl⟩⟩
    | false =>
      refine ⟨_, [], true, false, _, by simp, State.atClock_taken eighth x met, fun settled => ?_⟩
      rw [Bool.or_eq_false_iff] at met
      obtain ⟨-, kept⟩ := settled.resolve_left (by simp [met.1])
      obtain ⟨f, rfl⟩ := Option.ne_none_iff_exists'.mp kept
      exact ⟨rfl, rfl, .inr ⟨rfl, kept⟩⟩

theorem State.clocks_go (inside : bits.length ≤ 7) (xs : List Bool) :
    ∃ r' bits' started' ignoring' frame', bits'.length ≤ 7 ∧
      (s.atClock r bits started ignoring frame n).clocks xs =
        s.atClock r' bits' started' ignoring' frame' (n + xs.length) ∧
      (ignoring = true ∨ started = true ∧ frame ≠ none → r' = r ∧ frame' = frame) := by
  induction xs generalizing r bits started ignoring frame n with
  | nil => exact ⟨r, bits, started, ignoring, frame, inside, rfl, fun _ => ⟨rfl, rfl⟩⟩
  | cons x xs ih =>
    obtain ⟨r₁, bits₁, started₁, ignoring₁, frame₁, inside₁, clocked₁, settled₁⟩ :=
      State.atClock_goes (r := r) (started := started) (ignoring := ignoring) (frame := frame) (n := n) (s := s)
        inside x
    obtain ⟨r₂, bits₂, started₂, ignoring₂, frame₂, inside₂, clocked₂, settled₂⟩ := ih inside₁ (r := r₁)
      (started := started₁) (ignoring := ignoring₁) (frame := frame₁) (n := n + 1)
    refine ⟨r₂, bits₂, started₂, ignoring₂, frame₂, inside₂, ?_, fun settled => ?_⟩
    · rw [State.clocks_cons, clocked₁, clocked₂, List.length_cons, Nat.add_assoc, Nat.add_comm 1]
    · obtain ⟨rfl, rfl, goesOn⟩ := settled₁ settled
      exact settled₂ goesOn

theorem State.driveByte_miso (x : Byte) (u : State) : (u.driveByte x).pi.spi.miso = u.pi.spi.miso := rfl

/-- A rising edge leaves DMISO. -/
theorem State.dsckRise_miso (x : Bool) (u : State) : (u.dsckRise x).pi.spi.miso = u.pi.spi.miso := by
  unfold State.dsckRise
  dsimp only
  split
  · split
    · rfl
    · rw [State.driveByte_miso]
  · rfl

/-- The release hands over the frame kept. -/
theorem State.atClock_release :
    (s.atClock r bits started ignoring frame n).driveRelease =
      ({ s with pi := { s.pi with
        receivers := s.pi.receivers.set .drive r
        spi := ⟨false, false, [], false, false, none, [], none⟩ } } : State).endTransfer .drive frame := rfl

end

end Sys2Proof.Machine
end

section
/-! The transactions of the drive port and the transfers of the head port, from their start to their end (R167,
R168). -/

namespace Sys2Proof.Machine

theorem State.endTransfer_none (b : BusPort) (s : State) : s.endTransfer b none = exec (.invalidFrame b.port) s := rfl

theorem State.endTransfer_kept (b : BusPort) (code : Byte) (args : List Byte) (s : State) :
    s.endTransfer b (some (code :: args)) = exec (.answerSlotAccept b code args) s := rfl

/-- A frame is its sync byte and more. -/
theorem frameBytes_cons (payload : List Byte) : ∃ rest, frameBytes payload = 0xA5 :: rest := ⟨_, rfl⟩

/-! ### The drive port -/

/-- The part with no transaction in progress. -/
def State.driveReleased (s : State) : State :=
  { s with pi := { s.pi with spi := ⟨false, false, [], false, false, none, [], none⟩ } }

/-- DMISO carries the answer's bits, then those of 00H (R167). -/
theorem State.clocks_miso (s : State) (xs : List Bool) :
    (s.driveSelect.clocks xs).pi.spi.miso = some (s.driveOut.getD xs.length false) := by
  obtain ⟨r, bits, started, ignoring, frame, -, clocked, -⟩ := State.clocks_go (bits := [])
    (r := s.pi.receivers.drive) (started := false) (ignoring := false) (frame := none) (n := 0) (s := s) (Nat.zero_le 7) xs
  rw [State.driveSelect_eq, clocked, Nat.zero_add]
  rfl

/-- A transaction of less than a byte. -/
theorem State.clocks_release_short {s : State} {xs : List Bool} (short : xs.length < 8) :
    (s.driveSelect.clocks xs).driveRelease = exec (.invalidFrame .drive) s.driveReleased := by
  rw [State.driveSelect_eq, State.clocks_short (by simp; omega), State.atClock_release, State.endTransfer_none]
  rfl

/-- A transaction whose first bytes are a request's frame hands it over, whatever follows (log 14). -/
theorem State.clocks_release_frame {s : State} {code : Byte} {args : List Byte}
    (hunt : s.pi.receivers.drive = .hunt)
    (valid : Receiver.hunt.feed (frameBytes (code :: args)) = .valid (code :: args))
    (more : List Bool) :
    (s.driveSelect.clocks ((frameBytes (code :: args)).flatMap spiBits ++ more)).driveRelease =
      exec (.answerSlotAccept .drive code args) s.driveReleased := by
  obtain ⟨rest, sync⟩ := frameBytes_cons (code :: args)
  have met := Receiver.meetsAll_valid valid []
  rw [List.append_nil, sync] at met
  have same : s.pi.receivers.set .drive .hunt = s.pi.receivers := by
    rw [← hunt]
    rfl
  rw [State.driveSelect_eq, State.clocks_append, sync, List.flatMap_cons, State.clocks_append,
    State.clocks_taken rfl, State.clocks_bytes, hunt]
  have met' : (Receiver.hunt.meets none 0xA5).1.meetsAll (Receiver.hunt.meets none 0xA5).2 rest =
      (.hunt, some (code :: args)) := met
  rw [met']
  obtain ⟨r, bits, started, ignoring, frame, -, clocked, settled⟩ := State.clocks_go (bits := [])
    (r := .hunt) (started := true) (ignoring := false) (frame := some (code :: args)) (n := 0 + 8 + 8 * rest.length) (s := s) (Nat.zero_le 7) more
  obtain ⟨rfl, rfl⟩ := settled (.inr ⟨rfl, Option.some_ne_none _⟩)
  rw [clocked, State.atClock_release, State.endTransfer_kept, same]
  rfl

/-- A transaction whose first byte is not A5H is ignored. -/
theorem State.clocks_release_other {s : State} {x : Byte} (other : x ≠ 0xA5) (more : List Bool) :
    (s.driveSelect.clocks (spiBits x ++ more)).driveRelease = exec (.invalidFrame .drive) s.driveReleased := by
  rw [State.driveSelect_eq, State.clocks_append, State.clocks_ignored (by simpa using other)]
  obtain ⟨r, bits, started, ignoring, frame, -, clocked, settled⟩ := State.clocks_go (bits := [])
    (r := s.pi.receivers.drive) (started := true) (ignoring := true) (frame := none) (n := 0 + 8) (s := s) (Nat.zero_le 7) more
  obtain ⟨rfl, rfl⟩ := settled (.inl rfl)
  rw [clocked, State.atClock_release, State.endTransfer_none]
  rfl

/-! ### The head port -/

/-- The head port within a write, with its receiver and the frame kept. -/
def State.headWriting (r : Receiver) (frame : Option (List Byte)) (s : State) : State :=
  { s with pi := { s.pi with receivers := s.pi.receivers.set .head r, i2c := ⟨.write, frame, [], none, true⟩ } }

/-- The head port between transfers. -/
def State.headIdle (s : State) : State :=
  { s with pi := { s.pi with i2c := ⟨.idle, none, [], none, false⟩ } }

theorem State.headWriting_write (r : Receiver) (frame : Option (List Byte)) (x : Byte) (s : State) :
    (s.headWriting r frame).headWrite x = s.headWriting (r.meets frame x).1 (r.meets frame x).2 := by
  have writing : (s.headWriting r frame).pi.i2c.mode = .write := rfl
  simp only [State.headWrite, writing, if_true, State.busByte_eq]
  rfl

theorem State.headWriting_writes (r : Receiver) (frame : Option (List Byte)) (xs : List Byte) (s : State) :
    xs.foldl (fun u x => u.headWrite x) (s.headWriting r frame) =
      s.headWriting (r.meetsAll frame xs).1 (r.meetsAll frame xs).2 := by
  induction xs generalizing r frame with
  | nil => rfl
  | cons x xs ih =>
    rw [List.foldl_cons, State.headWriting_write, ih]
    rfl

/-- The write of a frame hands its request over at its end, whatever was written after it. -/
theorem State.headWriting_ends {s : State} {code : Byte} {args : List Byte} (hunt : s.pi.receivers.head = .hunt)
    (valid : Receiver.hunt.feed (frameBytes (code :: args)) = .valid (code :: args)) (more : List Byte) :
    ((frameBytes (code :: args) ++ more).foldl (fun u x => u.headWrite x)
      (s.headWriting s.pi.receivers.head none)).endHeadWrite =
        exec (.answerSlotAccept .head code args) s.headIdle := by
  have same : s.pi.receivers.set .head .hunt = s.pi.receivers := by
    rw [← hunt]
    rfl
  rw [State.headWriting_writes, hunt, Receiver.meetsAll_valid valid more]
  unfold State.headWriting
  rw [same]
  rfl

/-- The head port within a read, the answer's bytes from one on still to come. -/
def State.headReading (out : List Byte) (sda : Option Byte) (ack : Bool) (s : State) : State :=
  { s with pi := { s.pi with i2c := ⟨.read, none, out, sda, ack⟩ } }

theorem State.headReading_read (out : List Byte) (sda : Option Byte) (ack : Bool) (s : State) :
    (s.headReading out sda ack).headRead = s.headReading out.tail (some (out.headD 0xFF)) false := rfl

/-- The answer's bytes are read one after another, then FFH (R168). -/
theorem State.headReading_reads {α : Type} (x : α) (xs : List α) (out : List Byte) (sda : Option Byte) (ack : Bool)
    (s : State) :
    ((x :: xs).foldl (fun u _ => u.headRead) (s.headReading out sda ack)).pi.i2c.sda =
      some (out.getD xs.length 0xFF) := by
  induction xs generalizing x out sda ack with
  | nil =>
    cases out <;> rfl
  | cons y ys ih =>
    rw [List.foldl_cons, State.headReading_read, ih]
    cases out <;> rfl

theorem State.endHeadWrite_other {s : State} (other : s.pi.i2c.mode ≠ .write) :
    s.endHeadWrite = .next s.headIdle := if_neg other

theorem State.headStart_next {s t : State} (ends : s.endHeadWrite = .next t) (address : BitVec 7) (read : Bool) :
    s.headStart address read = .next (t.headAddressed address read) := by
  rw [State.headStart, ends]

end Sys2Proof.Machine
end

section
/-! Frames on SRXD (R163, R164), and the reception of a request on each port. -/

namespace Sys2Proof.Machine

/-! ### The surface receiver -/

theorem exec_unknownRequest (p : Port) (code : Byte) (args : List Byte) (s : State) :
    exec (.unknownRequest p code args) s =
      .next (s.whenRunning fun s => s.deliver code p args refuseUnknown) := rfl

/-- A surface request acts alike whatever its receiver was within. -/
theorem exec_surface_receiver {i : Instr} {code : Byte} {args : List Byte}
    (request : asRequest i = some (.surface, code, args)) (r : Receiver) {s : State} (running : s.resetLine = false) :
    exec i (s.setReceiver .surface r) = exec i s := by
  have running' : (s.setReceiver .surface r).resetLine = false := running
  by_cases known : i = .unknownRequest .surface code args
  · subst known
    rw [exec_unknownRequest, exec_unknownRequest, State.whenRunning_running _ running,
      State.whenRunning_running _ running']
    rfl
  · obtain ⟨α, rights, parse, act, -, -, taken⟩ := exec_asRequest request known
    rw [taken, taken, State.request, State.request, State.whenRunning_running _ running,
      State.whenRunning_running _ running']
    rfl

/-- The part that has just received a byte on SRXD. -/
def State.heardByte (s : State) : State := { s with pi := { s.pi with lastByte := s.now } }

theorem State.surfaceByte_more {s : State} {b : Byte} {r : Receiver} (more : s.pi.receivers.surface.take b = .more r) :
    s.surfaceByte b true = .next (s.heardByte.setReceiver .surface r) := by
  simp only [State.surfaceByte, if_true, more]
  rfl

theorem State.surfaceByte_discarded {s : State} {b : Byte} (bad : s.pi.receivers.surface.take b = .discarded) :
    s.surfaceByte b true = exec (.invalidFrame .surface) s.heardByte := by
  simp only [State.surfaceByte, if_true, bad]
  rfl

theorem State.surfaceByte_valid {s : State} {b : Byte} {code : Byte} {args : List Byte}
    (valid : s.pi.receivers.surface.take b = .valid (code :: args)) :
    s.surfaceByte b true = exec (requestOf .surface code args) s.heardByte := by
  simp only [State.surfaceByte, if_true, valid]
  rfl

theorem State.surfaceBytes_more {s : State} {b : Byte} {r : Receiver}
    (more : s.pi.receivers.surface.take b = .more r) (rest : List Byte) :
    s.surfaceBytes (b :: rest) = (s.heardByte.setReceiver .surface r).surfaceBytes rest := by
  rw [State.surfaceBytes, State.surfaceByte_more more]

theorem State.surfaceBytes_last (s : State) (b : Byte) : s.surfaceBytes [b] = s.surfaceByte b true := by
  rw [State.surfaceBytes]
  split
  · next t taken => rw [taken]; rfl
  · next stop _ => rfl

/-- Bytes within a frame leave the receiver within it. -/
theorem State.surfaceBytes_within {bytes : List Byte} {r r' : Receiver} (within : r.feed bytes = .more r')
    (rest : List Byte) (s : State) :
    (s.heardByte.setReceiver .surface r).surfaceBytes (bytes ++ rest) =
      (s.heardByte.setReceiver .surface r').surfaceBytes rest := by
  induction bytes generalizing r with
  | nil =>
    cases within
    rfl
  | cons b bytes ih =>
    cases taken : r.take b with
    | more r₁ =>
      rw [Receiver.feed_more taken] at within
      have same : (s.heardByte.setReceiver .surface r).heardByte.setReceiver .surface r₁ =
          s.heardByte.setReceiver .surface r₁ := rfl
      rw [List.cons_append, State.surfaceBytes_more (r := r₁) taken, same, ih within]
    | discarded =>
      rw [Receiver.feed_discards taken] at within
      cases within
    | valid payload =>
      rw [Receiver.feed, taken] at within
      cases bytes <;> cases within

/-- A frame received byte by byte is its request. -/
theorem State.surfaceBytes_frame {i : Instr} {code : Byte} {args : List Byte} {s : State}
    (spelled : i.wellFormed = true) (request : asRequest i = some (.surface, code, args))
    (running : s.resetLine = false) (hunt : s.pi.receivers.surface = .hunt) :
    s.surfaceBytes (frameBytes (code :: args)) = exec i s.heardByte := by
  obtain ⟨rest, sync⟩ := frameBytes_cons (code :: args)
  have valid : Receiver.length.feed rest = .valid (code :: args) := by
    rw [← feed_request spelled request, sync, Receiver.feed_more (r' := .length) rfl]
  obtain ⟨before, last, r, rfl, within, ends⟩ := Receiver.feed_valid valid
  have first : s.pi.receivers.surface.take 0xA5 = .more .length := by rw [hunt]; rfl
  have valid' : (s.heardByte.setReceiver .surface r).pi.receivers.surface.take last = .valid (code :: args) := ends
  have running' : s.heardByte.resetLine = false := running
  rw [sync, State.surfaceBytes_more first, State.surfaceBytes_within within, State.surfaceBytes_last,
    State.surfaceByte_valid valid', requestOf_asRequest spelled request]
  exact exec_surface_receiver request r running'

/-! ### Reception on each port -/

/-- Settles O60. -/
theorem aFrameIsReceivedAsItsRequest : Obligations.AFrameIsReceivedAsItsRequest := by
  refine ⟨fun bs b => ⟨rfl, crc16_append bs b⟩, by decide +kernel,
    fun payload => ⟨rfl, fun some_ short c0 c1 => Receiver.feed_frame some_ short c0 c1⟩, fun a => rfl, rfl,
    fun n i x y b0 b1 b2 b3 => ⟨rfl, u16_eq n, u32_eq n, s16_eq i, s32_eq i, le16_eq x, le32_eq y,
      le16_half b0 b1, le32_word b0 b1 b2 b3⟩,
    fun i p code args spelled request => ⟨feed_request spelled request, requestOf_asRequest spelled request⟩,
    ?_, ?_, ?_, ?_, fun i code args s spelled request running hunt =>
      State.surfaceBytes_frame spelled request running hunt⟩
  · intro s bitsOf out released clocked
    have bits_eq (bs : List Byte) : bitsOf bs = bs.flatMap spiBits := by
      simp only [bitsOf, ← spiBits_eq]
    have out_eq : out = s.driveOut := bits_eq _
    refine ⟨fun xs x => ?_, fun xs short => State.clocks_release_short short, fun hunt => ⟨?_, ?_⟩⟩
    · rw [State.dsckRise_miso, out_eq]
      exact ⟨State.clocks_miso s xs, State.clocks_miso s xs⟩
    · intro i code args more spelled request
      rw [bits_eq]
      exact State.clocks_release_frame hunt (feed_request spelled request) more
    · intro x more other
      rw [bits_eq, List.flatMap_singleton]
      exact State.clocks_release_other other more
  · intro s other bus out own writing written idle
    have writing_eq : writing = s.headWriting s.pi.receivers.head none := rfl
    refine ⟨fun address read => ?_, fun xs => ?_, fun x xs => State.headReading_reads x xs out none true s,
      fun hunt i code args more spelled request => ?_⟩
    · rw [State.headStart_next (State.endHeadWrite_other other)]
      refine congrArg _ ?_
      show (if address = own then _ else _) = _
      by_cases addressed : address = own
      · rw [if_pos addressed, if_pos addressed]
        cases read <;> rfl
      · rw [if_neg addressed, if_neg addressed]
        rfl
    · show (xs.foldl (fun u x => u.headWrite x) writing).pi.i2c.ack = true
      rw [writing_eq, State.headWriting_writes]
      rfl
    · have ends := State.headWriting_ends hunt (feed_request spelled request) more
      refine ⟨ends, fun address read => ⟨_, rfl, State.headStart_next ?_ address read⟩⟩
      exact ends
  · intro w rest s empty running none_ input u
    have taken := step_wire empty running none_ input
    refine ⟨?_, ?_, ?_, ?_, ?_, ?_, ?_, ?_⟩
    all_goals
      intros
      subst_vars
      exact taken
  · intro b stopBit rest s empty running none_ input u heardByte
    have taken := step_wire empty running none_ input
    refine ⟨fun framing => ?_, fun whole => ?_⟩
    · subst framing
      exact taken
    · subst whole
      refine ⟨taken, fun r more => ?_, fun bad => ?_⟩
      · rw [taken]
        exact State.surfaceByte_more (s := u) more
      · rw [taken]
        exact State.surfaceByte_discarded (s := u) bad

end Sys2Proof.Machine
end

section
/-! The output queue of the surface port (R164): what a REEL REPORT does, whatever waits in it. -/

namespace Sys2Proof.Machine

/-- The part with these answers waiting on the surface port. -/
def State.withQueue (q : List Answer) (s : State) : State := { s with pi := { s.pi with outQueue := q } }

/-! ### Operations that the output queue does not touch -/

section
variable (q : List Answer)

theorem State.setEventAll_withQueue (e : Event) (s : State) :
    (s.withQueue q).setEventAll e = (s.setEventAll e).withQueue q := rfl

theorem State.setHalt_withQueue (h : HaltController) (s : State) :
    (s.withQueue q).setHalt h = (s.setHalt h).withQueue q := by
  rw [State.setHalt_eq, State.setHalt_eq]
  rfl

theorem State.hearSurface_withQueue (s : State) : (s.withQueue q).hearSurface = s.hearSurface.withQueue q := by
  unfold State.hearSurface
  dsimp only
  by_cases lost : s.hc.linkHalt = true
  · have lost' : (s.withQueue q).hc.linkHalt = true := lost
    have same : (s.withQueue q).setHalt { (s.withQueue q).hc with linkHalt := false } =
        (s.setHalt { s.hc with linkHalt := false }).withQueue q := State.setHalt_withQueue q _ s
    rw [if_pos lost, if_pos lost', same]
    rfl
  · have lost' : ¬ (s.withQueue q).hc.linkHalt = true := lost
    rw [if_neg lost, if_neg lost']
    rfl

theorem State.heard_withQueue (p : Port) (s : State) : (s.withQueue q).heard p = (s.heard p).withQueue q := by
  cases p with
  | surface => exact State.hearSurface_withQueue q (s.setReceiver .surface .hunt)
  | drive => rfl
  | head => rfl

theorem State.notifyPort_withQueue (n : Nat) (p : Port) (s : State) :
    (s.withQueue q).notifyPort n p = (s.notifyPort n p).withQueue q :=
  (apply_ite (State.withQueue q) (s.jn.cursors.get p = n) (s.setEvent p .journal) s).symm

theorem State.storeRecord_withQueue (kept : List Record) (h : Header) (b : Body) (s : State) :
    (s.withQueue q).storeRecord kept h b = (s.storeRecord kept h b).withQueue q := by
  have notified (n : Nat) (u : State) : (u.withQueue q).notifyStored n = (u.notifyStored n).withQueue q := by
    unfold State.notifyStored
    rw [State.notifyPort_withQueue, State.notifyPort_withQueue, State.notifyPort_withQueue]
  exact notified s.jn.next
    { s with jn := { s.jn with store := kept ++ [⟨s.jn.next, h, b⟩], next := s.jn.next + 1 } }

theorem State.countDrop_withQueue (s : State) : (s.withQueue q).countDrop = s.countDrop.withQueue q := rfl

theorem State.clearDrops_withQueue (s : State) : (s.withQueue q).clearDrops = s.clearDrops.withQueue q := rfl

theorem State.handRecord_withQueue (h : Header) (b : Body) (s : State) :
    (s.withQueue q).handRecord h b = ((s.handRecord h b).1.withQueue q, (s.handRecord h b).2) := by
  have jn : (s.withQueue q).jn = s.jn := rfl
  have header : (s.withQueue q).header = s.header := rfl
  by_cases exhausted : exhaustedNumber ≤ s.jn.next
  · rw [State.handRecord_exhausted exhausted, State.handRecord_exhausted (s := s.withQueue q) exhausted]
    rfl
  · by_cases whole : s.jn.dropCount = 0
    · have numbers : s.jn.next < exhaustedNumber := Nat.lt_of_not_le exhausted
      cases made : makeRoom s.jn.evictable b.words s.jn.store with
      | some kept =>
        rw [State.handRecord_alone numbers whole made, State.handRecord_alone (s := s.withQueue q) numbers whole made,
          State.storeRecord_withQueue, jn]
      | none =>
        rw [State.handRecord_alone_none numbers whole made,
          State.handRecord_alone_none (s := s.withQueue q) numbers whole made]
        rfl
    · by_cases last : s.jn.next + 1 = exhaustedNumber
      · cases made : makeRoom s.jn.evictable 8 s.jn.store with
        | some kept =>
          rw [State.handRecord_last last whole made, State.handRecord_last (s := s.withQueue q) last whole made,
            State.countDrop_withQueue, header, State.storeRecord_withQueue, State.clearDrops_withQueue]
          rfl
        | none =>
          rw [State.handRecord_last_none last whole made,
            State.handRecord_last_none (s := s.withQueue q) last whole made]
          rfl
      · have numbers : s.jn.next + 1 < exhaustedNumber := by omega
        cases made : makeRoom s.jn.evictable (8 + b.words) s.jn.store with
        | some kept =>
          rw [State.handRecord_pair numbers whole made, State.handRecord_pair (s := s.withQueue q) numbers whole made]
          dsimp only
          rw [header, jn, State.storeRecord_withQueue]
          have stored (u : State) : (u.withQueue q).jn.store = u.jn.store := rfl
          rw [stored, State.storeRecord_withQueue, State.clearDrops_withQueue]
        | none =>
          rw [State.handRecord_pair_none numbers whole made,
            State.handRecord_pair_none (s := s.withQueue q) numbers whole made]
          rfl

theorem State.journal_withQueue (b : Body) (s : State) : (s.withQueue q).journal b = (s.journal b).withQueue q :=
  congrArg Prod.fst (State.handRecord_withQueue q s.header b s)

theorem State.journalState_withQueue (causes : StateCauses) (before : Agreement) (s : State) :
    (s.withQueue q).journalState causes before = (s.journalState causes before).withQueue q := by
  have cu : (s.withQueue q).cu = s.cu := rfl
  rw [State.journalState, cu, State.journal_withQueue, State.setEventAll_withQueue]
  rfl

theorem State.setSeq_withQueue (x : Option HaltSeq) (s : State) :
    (s.withQueue q).setSeq x = (s.setSeq x).withQueue q := by
  have set_ : (s.withQueue q).setHalt { (s.withQueue q).hc with seq := x } =
      (s.setHalt { s.hc with seq := x }).withQueue q := State.setHalt_withQueue q _ s
  have seq : (s.withQueue q).hc.seq = s.hc.seq := rfl
  unfold State.setSeq
  dsimp only
  rw [set_, seq]
  split
  · rfl
  · split
    · rfl
    · rfl

theorem State.startHalt_withQueue (kind : HaltKind) (origin : HaltOrigin) (s : State) :
    (s.withQueue q).startHalt kind origin = (s.startHalt kind origin).withQueue q := by
  unfold State.startHalt
  dsimp only
  rw [State.setSeq_withQueue, State.journal_withQueue]
  rfl

theorem State.joinStill_withQueue (e : StillEntry) (s : State) :
    (s.withQueue q).joinStill e = (s.joinStill e).withQueue q := rfl

theorem State.fireHalt_withQueue (i : Fin 16) (e : Waypoint) (n : Nat) (kind : HaltKind) (s : State) :
    (s.withQueue q).fireHalt i e n kind = (s.fireHalt i e n kind).withQueue q := by
  have seq : (s.withQueue q).hc.seq = s.hc.seq := rfl
  have sq : (s.withQueue q).sq = s.sq := rfl
  unfold State.fireHalt
  rw [seq, sq, State.joinStill_withQueue, State.journal_withQueue, State.journal_withQueue, State.journal_withQueue,
    State.startHalt_withQueue]
  cases s.hc.seq with
  | none => rfl
  | some _ =>
    cases kind with
    | halt => rfl
    | haltStill => exact (apply_ite (State.withQueue q) _ _ _).symm

theorem State.performAction_withQueue (i : Fin 16) (e : Waypoint) (n : Nat) (s : State) :
    (s.withQueue q).performAction i e n = (s.performAction i e n).withQueue q := by
  have sq : (s.withQueue q).sq = s.sq := rfl
  unfold State.performAction
  rw [sq, State.journal_withQueue, State.journal_withQueue, State.joinStill_withQueue, State.fireHalt_withQueue,
    State.fireHalt_withQueue]
  cases e.action with
  | mark => rfl
  | still => exact (apply_ite (State.withQueue q) _ _ _).symm
  | halt => rfl
  | haltStill => rfl
  | preset k => rfl

theorem State.crossSlot_withQueue (c : Int) (i : Fin 16) (s : State) :
    (s.withQueue q).crossSlot c i = (s.crossSlot c i).withQueue q := by
  have slot : (s.withQueue q).slot i = s.slot i := rfl
  have set_ (x : Slot) : (s.withQueue q).setSlot i x = (s.setSlot i x).withQueue q := rfl
  unfold State.crossSlot
  rw [slot]
  cases s.slot i with
  | free => rfl
  | spent e => rfl
  | armed e side =>
    dsimp only
    rw [set_, set_, State.performAction_withQueue]
    exact (apply_ite (State.withQueue q) _ _ _).symm

theorem State.crossWaypoints_withQueue (s : State) :
    (s.withQueue q).crossWaypoints = s.crossWaypoints.withQueue q := by
  have cross (slots : List (Fin 16)) (u : State) : slots.foldl (State.crossSlot s.cu.chainage) (u.withQueue q) =
      (slots.foldl (State.crossSlot s.cu.chainage) u).withQueue q := by
    induction slots generalizing u with
    | nil => rfl
    | cons i slots ih => rw [List.foldl_cons, State.crossSlot_withQueue, ih, List.foldl_cons]
  exact cross slotNumbers s

theorem State.advance_withQueue (mm : Int) (s : State) : (s.withQueue q).advance mm = (s.advance mm).withQueue q := by
  let reached := clampInt chMin chMax (s.cu.chainage + mm)
  let moved : State := { s with cu := { s.cu with
    chainage := reached, sat := s.cu.sat || reached ≠ s.cu.chainage + mm } }
  have crossed : (moved.withQueue q).crossWaypoints = moved.crossWaypoints.withQueue q :=
    State.crossWaypoints_withQueue q moved
  show (if reached ≠ s.cu.chainage then (moved.withQueue q).crossWaypoints else moved.withQueue q) =
    (if reached ≠ s.cu.chainage then moved.crossWaypoints else moved).withQueue q
  rw [crossed]
  exact (apply_ite (State.withQueue q) _ _ _).symm

theorem State.closeWindow_withQueue (s : State) : (s.withQueue q).closeWindow = s.closeWindow.withQueue q := by
  let closed : State := { s with cu := s.cu.closing s.newWindow }
  let causes := closeCauses s.cu closed.cu
  have journaled : (closed.chooseTrust.withQueue q).journalState causes s.cu.agreement =
      (closed.chooseTrust.journalState causes s.cu.agreement).withQueue q :=
    State.journalState_withQueue q causes s.cu.agreement closed.chooseTrust
  show (if causes.agreement || causes.wheelFault then
      (closed.chooseTrust.withQueue q).journalState causes s.cu.agreement else closed.withQueue q) =
    (if causes.agreement || causes.wheelFault then
      closed.chooseTrust.journalState causes s.cu.agreement else closed).withQueue q
  rw [journaled]
  exact (apply_ite (State.withQueue q) _ _ _).symm

theorem State.testWindow_withQueue (s : State) : (s.withQueue q).testWindow = s.testWindow.withQueue q := by
  have cu : (s.withQueue q).cu = s.cu := rfl
  unfold State.testWindow
  rw [cu, State.closeWindow_withQueue]
  exact (apply_ite (State.withQueue q) _ _ _).symm

theorem State.cableIncrement_withQueue (mm : Int) (s : State) :
    (s.withQueue q).cableIncrement mm = (s.cableIncrement mm).withQueue q := by
  let turned : State := { s with cu := { s.cu with cableTrack := s.cu.cableTrack + BitVec.ofInt 32 mm } }
  show (if s.cu.trusted = .cable then (turned.withQueue q).advance mm else turned.withQueue q).testWindow =
    (if s.cu.trusted = .cable then turned.advance mm else turned).testWindow.withQueue q
  rw [State.advance_withQueue, ← apply_ite (State.withQueue q), State.testWindow_withQueue]

theorem State.applyReel_withQueue (count : Word32) (s : State) :
    (s.withQueue q).applyReel count = (s.applyReel count).withQueue q := by
  have seed : (s.withQueue q).cu.reelSeed = s.cu.reelSeed := rfl
  unfold State.applyReel
  rw [seed]
  cases s.cu.reelSeed with
  | none => rfl
  | some last =>
    let delta := (count - last).toInt
    let sum := s.cu.cableResidual + delta * s.cfg.reelScale
    let seeded : State := { s with cu := { s.cu with reelSeed := some count } }
    let carried : State := { seeded with cu := { seeded.cu with cableResidual := sum.tmod 1000 } }
    show (if s.cfg.reelJumpLimit < delta.natAbs then
        (seeded.withQueue q).journalState ⟨false, false, false, true⟩ s.cu.agreement
      else if sum.tdiv 1000 = 0 then carried.withQueue q
      else (carried.withQueue q).cableIncrement (sum.tdiv 1000)) =
      (if s.cfg.reelJumpLimit < delta.natAbs then seeded.journalState ⟨false, false, false, true⟩ s.cu.agreement
      else if sum.tdiv 1000 = 0 then carried else carried.cableIncrement (sum.tdiv 1000)).withQueue q
    rw [State.journalState_withQueue, State.cableIncrement_withQueue, apply_ite (State.withQueue q),
      apply_ite (State.withQueue q)]

theorem State.findCable_withQueue (s : State) : (s.withQueue q).findCable = s.findCable.withQueue q :=
  State.journalState_withQueue q ⟨false, false, true, false⟩ s.cu.agreement
    (({ s with cu := { s.cu with cableLost := false } } : State).reopenWindow.chooseTrust)

theorem State.takeReel_withQueue (count : Word32) (s : State) :
    (s.withQueue q).takeReel count = (s.takeReel count).withQueue q := by
  let timed : State := { s with cu := { s.cu with silenceStart := some s.now } }
  show (if s.cu.cableLost then (timed.withQueue q).findCable else timed.withQueue q).applyReel count =
    ((if s.cu.cableLost then timed.findCable else timed).applyReel count).withQueue q
  rw [State.findCable_withQueue, ← apply_ite (State.withQueue q), State.applyReel_withQueue]

end

/-! ### Frames with the queue full -/

/-- With four answers waiting a surface frame other than a REEL REPORT is heard and discarded. -/
theorem State.takeSurface_full {code : Byte} {s : State} (other : code ≠ 0x14) (full : 4 ≤ s.pi.outQueue.length)
    (body : State → State × Reply) : s.takeSurface code body = s.heard .surface := by
  have waiting : outputPlaces ≤ (s.heard .surface).pi.outQueue.length := by
    rw [show (s.heard .surface).pi.outQueue = s.pi.outQueue by simp]
    exact full
  exact (if_neg other).trans (if_pos waiting)

/-- What a REEL REPORT with these arguments does once it is heard. -/
def State.reelTaken (args : List Byte) (s : State) : State :=
  match parseU32 args with
  | some count => s.takeReel count
  | none => s

theorem exec_reelReport_taken {s : State} (running : s.resetLine = false) (args : List Byte) :
    exec (.reelReport .surface args) s = .next ((s.heard .surface).reelTaken args) := by
  refine congrArg Host.Outcome.next ((State.whenRunning_running _ running).trans ?_)
  show ((checkRequest surfaceOnly parseU32 actReelReport .surface args) (s.heard .surface)).1 = _
  unfold checkRequest State.reelTaken
  cases parseU32 args <;> rfl

theorem State.reelTaken_withQueue (q : List Answer) (args : List Byte) (s : State) :
    (s.withQueue q).reelTaken args = (s.reelTaken args).withQueue q := by
  unfold State.reelTaken
  cases parseU32 args with
  | none => rfl
  | some count => exact State.takeReel_withQueue q count s

/-- A REEL REPORT leaves the queue and acts alike whatever waits in it. -/
theorem State.reelTaken_queue (args : List Byte) (s : State) :
    (s.reelTaken args).withQueue s.pi.outQueue = s.reelTaken args :=
  (State.reelTaken_withQueue s.pi.outQueue args s).symm

/-- Settles O7. -/
theorem fullOutputQueueDiscardsTheFrame : Obligations.FullOutputQueueDiscardsTheFrame := by
  refine ⟨fun i code args s request other running full => ?_, fun args s => ?_⟩
  · by_cases known : i = .unknownRequest .surface code args
    · subst known
      rw [exec_unknownRequest, State.whenRunning_running _ running]
      exact congrArg _ (State.takeSurface_full other full refuseUnknown)
    · obtain ⟨α, rights, parse, act, -, -, taken⟩ := exec_asRequest request known
      rw [taken, State.request, State.whenRunning_running _ running]
      exact congrArg _ (State.takeSurface_full other full (checkRequest rights parse act .surface args))
  · by_cases reset : s.resetLine = true
    · have held (u : State) (reset : u.resetLine = true) : exec (.reelReport .surface args) u = .next u :=
        congrArg Host.Outcome.next (if_pos reset)
      exact ⟨s, held s reset, rfl, s.withQueue [], held (s.withQueue []) reset, rfl⟩
    · have running : s.resetLine = false := Bool.eq_false_of_not_eq_true reset
      have queue : (s.heard .surface).pi.outQueue = s.pi.outQueue := by simp
      have kept := State.reelTaken_queue args (s.heard .surface)
      rw [queue] at kept
      refine ⟨_, exec_reelReport_taken running args, congrArg (fun u => u.pi.outQueue) kept.symm,
        _, exec_reelReport_taken (s := s.withQueue []) running args, ?_⟩
      rw [State.heard_withQueue, State.reelTaken_withQueue]
      exact kept.symm

end Sys2Proof.Machine
end
